-- ==== Sys2Proof/Word.lean ====
section
/-!
DEFINITION. The widths the spec names: 8-bit channels (R24), 16-bit pulse-buffer elements (ELEM_BITS = 16, R6),
64-bit command words (R80) and 32-bit response words (R88).
-/

namespace Sys2Proof

/-- One color channel (R24). -/
abbrev Byte := BitVec 8

/-- One pulse-width value: an element of `BUF`, and the width of `TMR_CMP` (R6, `ELEM_BITS = 16`). -/
abbrev Elem := BitVec 16

/-- One command word (R80, R81). -/
abbrev CmdWord := BitVec 64

/-- One response word (R88). -/
abbrev RespWord := BitVec 32

end Sys2Proof
end

