-- ==== Sys2Proof/Syntax.lean ====
section
/-!
DEFINITION. The names of the spec's things: Colors, phases, agents, and the one type of instructions, a constructor
for each row of spec/opcode_table.json (six host commands, nine controller phases, two agent events).
-/

namespace Sys2Proof

/-- A Color, red first as the spec writes it (R11, R24). -/
structure Color where
  r : Byte
  g : Byte
  b : Byte
  deriving DecidableEq, Repr, Inhabited

/-- The controller's phases (R21). The reserved codes 0xA to 0xF are left out, as R22 allows. -/
inductive Phase where
  | idle | encode | engDisable | engLoad | engEnable | tmrEnable | wait | clearTc | tmrDisable | abort
  deriving DecidableEq, Repr, Inhabited

/-- Who moves (R5): the host, the second issuer of commands (R180), the transmitter controller, the PWM timer and
the transfer engine. -/
inductive Agent where
  | host | second | controller | timer | engine
  deriving DecidableEq, Repr, Inhabited

/-- The instructions: every row of spec/opcode_table.json. -/
inductive Instr where
  /-- INIT (R170). -/
  | init
  /-- SET_PIXEL (R102). -/
  | setPixel (idx : BitVec 16) (color : Color)
  /-- SET_PIXEL_CHANNELS (R103). -/
  | setPixelChannels (idx : BitVec 16) (r g b : Byte)
  /-- FILL (R104). -/
  | fill (color : Color)
  /-- TRANSMIT (R142). -/
  | transmit
  /-- GET_PIXEL (R106). -/
  | getPixel (idx : BitVec 16)
  /-- Phase ENCODE (R143). -/
  | encode
  /-- Phase ENG_DISABLE (R144). -/
  | engDisable
  /-- Phase ENG_LOAD (R145). -/
  | engLoad
  /-- Phase ENG_ENABLE (R146). -/
  | engEnable
  /-- Phase TMR_ENABLE (R147). -/
  | tmrEnable
  /-- Phase WAIT (R148). -/
  | wait
  /-- Phase CLEAR_TC (R149). -/
  | clearTc
  /-- Phase TMR_DISABLE (R150). -/
  | tmrDisable
  /-- Phase ABORT (R151). -/
  | abort
  /-- The timer's period event TIMER_PERIOD (R175). -/
  | timerPeriod
  /-- The engine's service ENGINE_SERVICE (R176). -/
  | engineService
  deriving DecidableEq, Repr, Inhabited

end Sys2Proof
end

