-- ==== Sys2Proof/Config.lean ====
section
/-!
DEFINITION. The configuration of R6 with the constraints of R7, the spec's example configuration EX (R8), and the
model's free values. A configuration is plain data carried by the state and written by no step (log entry 1).
-/

namespace Sys2Proof

/-- The build-time parameters of R6. `ELEM_BITS` and `CNT_MAX` have one value for this hardware and stand below;
`PERIOD` and `LEN` are derived from the others. -/
structure Config where
  /-- `N`, the pixel count. -/
  n : Nat
  /-- `R`, the reset-gap slot count. -/
  r : Nat := 50
  /-- `PW_ONE`, the compare count of a bit 1. -/
  pwOne : Nat
  /-- `PW_ZERO`, the compare count of a bit 0. -/
  pwZero : Nat
  /-- `SYSCLK_HZ`, the timer's input clock. -/
  sysclkHz : Nat
  /-- `HAS_GETTER`: whether GET_PIXEL exists (R105). -/
  hasGetter : Bool := false
  /-- `WAIT_BOUND`: none, or some number of polls (R148). -/
  waitBound : Option Nat := none
  /-- `PIN`, the output pin's identity: "OPEN opaque parameter; no rule reads its value" (R6). DESIGN CHOICE: a number
  stands for it (log entry 16). -/
  pin : Nat
  deriving DecidableEq, Repr

/-- The widths an engine transfer can have (the SIZE field of R27). -/
inductive ElemWidth where
  | bits8 | bits16 | bits32
  deriving DecidableEq, Repr

/-- `ELEM_BITS = 16` for this hardware (R6). -/
def Config.elemWidth : ElemWidth := .bits16

/-- `CNT_MAX = 65535` for this hardware (R6). -/
def Config.cntMax : Nat := 65535

/-- `PERIOD = SYSCLK_HZ / 800000` (R6). -/
def Config.period (c : Config) : Nat := c.sysclkHz / 800000

/-- The number of data entries of the pulse timing buffer, `N × 24` (R25). -/
def Config.dataLen (c : Config) : Nat := c.n * 24

/-- `LEN = N × 24 + R`, the length of the pulse timing buffer (R6). -/
def Config.len (c : Config) : Nat := c.dataLen + c.r

/-- R7: the configurations a claim is about; and `B ≥ 1` of R6 where the wait is bounded. -/
abbrev Config.Admissible (c : Config) : Prop :=
  1 ≤ c.n ∧ c.n ≤ 65536 ∧ 2 ≤ c.r ∧ c.sysclkHz % 800000 = 0 ∧
  0 < c.pwZero ∧ c.pwZero < c.pwOne ∧ c.pwOne < c.period ∧ c.period < 2 ^ 16 ∧
  c.len ≤ Config.cntMax ∧ ∀ b ∈ c.waitBound, 1 ≤ b

/-- The example configuration `EX` of R8. DESIGN CHOICE: it is the configuration of State.reset (log entry 1). DESIGN
CHOICE: R8 gives `EX` no `PIN`, and 0 stands for it here (log entry 16). -/
def Config.ex : Config :=
  { n := 3, r := 50, pwOne := 38, pwZero := 19, sysclkHz := 48000000, hasGetter := true, waitBound := none, pin := 0 }

/-- FREE VALUE: which agent moves at the k-th move that the state's own list of agents does not name; the spec leaves
the order of the agents' steps free (R208; log entry 3). -/
opaque Config.freeAgent : Nat → Agent

/-- FREE VALUE: the line's level at tick k while the block does not drive it, before INIT ("Its level is unspecified:
any value", R178 item 4; log entry 10). -/
opaque Config.undrivenLevel : Nat → Bool

end Sys2Proof
end

