-- ==== Sys2Proof/WellFormed.lean ====
section
/-!
DEFINITION. Which instructions exist in a configuration, and which of the three formats each has. Operand fields
cannot be out of range: their types have the fields' widths (R82, R83).
-/

namespace Sys2Proof

/-- R105: GET_PIXEL exists only when `HAS_GETTER = true`; every other instruction exists in every configuration. -/
def Instr.wellFormed (c : Config) : Instr → Bool
  | .getPixel _ => c.hasGetter
  | .init | .setPixel _ _ | .setPixelChannels _ _ _ _ | .fill _ | .transmit => true
  | .encode | .engDisable | .engLoad | .engEnable | .tmrEnable | .wait | .clearTc | .tmrDisable | .abort => true
  | .timerPeriod | .engineService => true

/-- The host commands (R84): the instructions a command word selects. -/
def Instr.isCommand : Instr → Bool
  | .init | .setPixel _ _ | .setPixelChannels _ _ _ _ | .fill _ | .transmit | .getPixel _ => true
  | .encode | .engDisable | .engLoad | .engEnable | .tmrEnable | .wait | .clearTc | .tmrDisable | .abort => false
  | .timerPeriod | .engineService => false

/-- The phase whose step an instruction is (R21), for the controller's steps. -/
def Instr.phase? : Instr → Option Phase
  | .encode => some .encode
  | .engDisable => some .engDisable
  | .engLoad => some .engLoad
  | .engEnable => some .engEnable
  | .tmrEnable => some .tmrEnable
  | .wait => some .wait
  | .clearTc => some .clearTc
  | .tmrDisable => some .tmrDisable
  | .abort => some .abort
  | .init | .setPixel _ _ | .setPixelChannels _ _ _ _ | .fill _ | .transmit | .getPixel _ => none
  | .timerPeriod | .engineService => none

end Sys2Proof
end

