-- ==== Sys2Proof/Decode.lean ====
section
/-!
DEFINITION. Decoding, total on every 64-bit command word (R92), on every phase code (R21) and on every agent-event
identifier (R89); the encoder, from the same tables; the assembler of R90; and the host's numbering of table words.
-/

namespace Sys2Proof

/-- Why an encoding is no instruction, by name (R86 for command words, R21 and R22 for phase codes). -/
inductive Reject where
  /-- OP is 0x00 or in 0x07–0xFF (R86). -/
  | reservedOpcode
  /-- OP is valid, and a field that must be 0 is not 0 (R86). -/
  | reservedField
  /-- OP is 0x06 and `HAS_GETTER = false` (R86). -/
  | noGetter
  /-- Phase code 0x0: in IDLE the controller takes no step (R140). -/
  | idlePhase
  /-- Phase codes 0xA–0xF (R21). -/
  | reservedPhase
  deriving DecidableEq, Repr

/-- What selects an instruction: a presented command word, the phase register, or an agent event (R89). -/
inductive Encoding where
  | command (w : CmdWord)
  | phase (code : BitVec 4)
  | event (id : BitVec 1)
  deriving DecidableEq, Repr

/-- The six command rows of the opcode map (R84). -/
inductive Cmd where
  | init | setPixel | setPixelChannels | fill | transmit | getPixel
  deriving DecidableEq, Repr

/-- The rows in the order the decoder tries them (R92). -/
def Cmd.all : List Cmd := [.init, .setPixel, .setPixelChannels, .fill, .transmit, .getPixel]

/-- The opcode of a row (R84). -/
def Cmd.opcode : Cmd → Byte
  | .init => 0x01#8
  | .setPixel => 0x02#8
  | .setPixelChannels => 0x03#8
  | .fill => 0x04#8
  | .transmit => 0x05#8
  | .getPixel => 0x06#8

/-- `match(X)` of R85. -/
def Cmd.pat : Cmd → CmdWord
  | .init => 0x0100000000000000#64
  | .setPixel => 0x0200000000000000#64
  | .setPixelChannels => 0x0300000000000000#64
  | .fill => 0x0400000000000000#64
  | .transmit => 0x0500000000000000#64
  | .getPixel => 0x0600000000000000#64

/-- `mask(X)` of R85. -/
def Cmd.mask : Cmd → CmdWord
  | .init => 0xFFFFFFFFFFFFFFFF#64
  | .setPixel => 0xFFFF0000FF000000#64
  | .setPixelChannels => 0xFFFF0000FF000000#64
  | .fill => 0xFFFFFFFFFF000000#64
  | .transmit => 0xFFFFFFFFFFFFFFFF#64
  | .getPixel => 0xFFFF0000FFFFFFFF#64

/-- A word spells a row when it agrees with `match(X)` on `mask(X)` (R85). -/
def Cmd.spells (x : Cmd) (w : CmdWord) : Bool := w &&& x.mask == x.pat

/-- `OP = w[63:56]` (R81). -/
def opOf (w : CmdWord) : Byte := w.extractLsb' 56 8

/-- `IDX = w[47:32]` (R81, R82). -/
def idxOf (w : CmdWord) : BitVec 16 := w.extractLsb' 32 16

/-- `color = (r, g, b)` with `r = w[23:16]`, `g = w[15:8]`, `b = w[7:0]` (R83). -/
def colorOf (w : CmdWord) : Color := ⟨w.extractLsb' 16 8, w.extractLsb' 8 8, w.extractLsb' 0 8⟩

/-- The instruction a row stands for, with its operands read from the word (R92). -/
def Cmd.build (w : CmdWord) : Cmd → Instr
  | .init => .init
  | .setPixel => .setPixel (idxOf w) (colorOf w)
  | .setPixelChannels => .setPixelChannels (idxOf w) (colorOf w).r (colorOf w).g (colorOf w).b
  | .fill => .fill (colorOf w)
  | .transmit => .transmit
  | .getPixel => .getPixel (idxOf w)

/-- Why a word that spells no row is illegal (R86). -/
def rejectWord (w : CmdWord) : Reject :=
  if Cmd.all.any (fun x => x.opcode == opOf w) then .reservedField else .reservedOpcode

/-- The decoder of R92, total on every word. -/
def decodeCommand (hasGetter : Bool) (w : CmdWord) : Except Reject Instr :=
  match Cmd.all.find? (fun x => x.spells w) with
  | some x => if x = .getPixel ∧ hasGetter = false then .error .noGetter else .ok (x.build w)
  | none => .error (rejectWord w)

/-- The phase codes (R21). -/
def phaseCode : Phase → BitVec 4
  | .idle => 0x0#4
  | .encode => 0x1#4
  | .engDisable => 0x2#4
  | .engLoad => 0x3#4
  | .engEnable => 0x4#4
  | .tmrEnable => 0x5#4
  | .wait => 0x6#4
  | .clearTc => 0x7#4
  | .tmrDisable => 0x8#4
  | .abort => 0x9#4

/-- The phase a code names; none for the reserved codes 0xA–0xF (R21). -/
def phaseOfCode (code : BitVec 4) : Option Phase :=
  match code.toNat with
  | 0 => some .idle
  | 1 => some .encode
  | 2 => some .engDisable
  | 3 => some .engLoad
  | 4 => some .engEnable
  | 5 => some .tmrEnable
  | 6 => some .wait
  | 7 => some .clearTc
  | 8 => some .tmrDisable
  | 9 => some .abort
  | _ => none

/-- The controller's step of a phase; IDLE has none (R140, R152). -/
def phaseInstr : Phase → Except Reject Instr
  | .idle => .error .idlePhase
  | .encode => .ok .encode
  | .engDisable => .ok .engDisable
  | .engLoad => .ok .engLoad
  | .engEnable => .ok .engEnable
  | .tmrEnable => .ok .tmrEnable
  | .wait => .ok .wait
  | .clearTc => .ok .clearTc
  | .tmrDisable => .ok .tmrDisable
  | .abort => .ok .abort

/-- The controller's step that a phase code selects (R89). -/
def decodePhase (code : BitVec 4) : Except Reject Instr :=
  match phaseOfCode code with
  | some p => phaseInstr p
  | none => .error .reservedPhase

/-- The agent event that an identifier names: 0 TIMER_PERIOD, 1 ENGINE_SERVICE (R89). -/
def decodeEvent (id : BitVec 1) : Instr := if id = 0#1 then .timerPeriod else .engineService

/-- Decoding of all three formats. -/
def decode (hasGetter : Bool) : Encoding → Except Reject Instr
  | .command w => decodeCommand hasGetter w
  | .phase code => decodePhase code
  | .event id => .ok (decodeEvent id)

/-! ## The encoder -/

/-- The command word with these fields (R81): opcode, zero byte, index, zero byte, red, green, blue. -/
def cmdWord (op : Byte) (idx : BitVec 16) (c : Color) : CmdWord := op ++ 0#8 ++ idx ++ 0#8 ++ c.r ++ c.g ++ c.b

/-- The encoding of every instruction (R84, R21, R89). -/
def encode : Instr → Encoding
  | .init => .command (cmdWord 0x01#8 0 ⟨0, 0, 0⟩)
  | .setPixel idx color => .command (cmdWord 0x02#8 idx color)
  | .setPixelChannels idx r g b => .command (cmdWord 0x03#8 idx ⟨r, g, b⟩)
  | .fill color => .command (cmdWord 0x04#8 0 color)
  | .transmit => .command (cmdWord 0x05#8 0 ⟨0, 0, 0⟩)
  | .getPixel idx => .command (cmdWord 0x06#8 idx ⟨0, 0, 0⟩)
  | .encode => .phase 0x1#4
  | .engDisable => .phase 0x2#4
  | .engLoad => .phase 0x3#4
  | .engEnable => .phase 0x4#4
  | .tmrEnable => .phase 0x5#4
  | .wait => .phase 0x6#4
  | .clearTc => .phase 0x7#4
  | .tmrDisable => .phase 0x8#4
  | .abort => .phase 0x9#4
  | .timerPeriod => .event 0#1
  | .engineService => .event 1#1

/-- The command word that presents a command: the word a fault records (R201). A controller step or an agent event has
no command word and raises no fault (R46); the all-zero word, which spells no command (R86), stands for its absence. -/
def commandWord (i : Instr) : CmdWord :=
  match encode i with
  | .command w => w
  | .phase _ => 0
  | .event _ => 0

/-! ## The assembler of R90 -/

/-- A line of the spec's assembly syntax with its literals as written (R90). -/
inductive AsmLine where
  | init
  | setPixel (idx r g b : Nat)
  | setPixelChannels (idx r g b : Nat)
  | fill (r g b : Nat)
  | transmit
  | getPixel (idx : Nat)
  deriving DecidableEq, Repr

/-- A channel literal, refused above 255 (R90). -/
def asmChannel (v : Nat) : Option Byte := if v ≤ 255 then some (BitVec.ofNat 8 v) else none

/-- An index literal, refused above 65535 (R90). -/
def asmIndex (v : Nat) : Option (BitVec 16) := if v ≤ 65535 then some (BitVec.ofNat 16 v) else none

/-- Three channel literals as a Color (R90). -/
def asmColor (r g b : Nat) : Option Color := do
  return ⟨← asmChannel r, ← asmChannel g, ← asmChannel b⟩

/-- The command a line names; a literal out of range is refused and never truncated (R90). -/
def AsmLine.instr : AsmLine → Option Instr
  | .init => some .init
  | .setPixel idx r g b => do return .setPixel (← asmIndex idx) (← asmColor r g b)
  | .setPixelChannels idx r g b => do
      return .setPixelChannels (← asmIndex idx) (← asmChannel r) (← asmChannel g) (← asmChannel b)
  | .fill r g b => do return .fill (← asmColor r g b)
  | .transmit => some .transmit
  | .getPixel idx => do return .getPixel (← asmIndex idx)

/-- The word a line assembles to (R90). -/
def AsmLine.word (l : AsmLine) : Option CmdWord := l.instr.map commandWord

/-! ## The host's numbering of table words -/

/-- The encoding that `nbits` bits of a table row stand for: a 1-bit agent event, a phase code in up to a byte, or a
command word. In whole bytes a phase code and an event identifier look alike; a byte of 0, which is no phase row, is
read as the event TIMER_PERIOD, every other byte as a phase code (log entry 7). -/
def tableEncoding (nbits w : Nat) : Option Encoding :=
  if nbits ≤ 1 then (if w ≤ 1 then some (.event (BitVec.ofNat 1 w)) else none)
  else if nbits ≤ 8 then
    (if w = 0 then some (.event 0#1) else if w ≤ 15 then some (.phase (BitVec.ofNat 4 w)) else none)
  else if nbits ≤ 64 then some (.command (BitVec.ofNat 64 w))
  else none

/-- The instruction the decoder reads from a table row's word, with the getter as State.reset's configuration has it. -/
def decodeTableWord (nbits w : Nat) : Option Instr :=
  match tableEncoding nbits w with
  | some e => (decode Config.ex.hasGetter e).toOption
  | none => none

end Sys2Proof
end

