-- ==== Sys2Proof/Machine/State.lean ====
section
/-!
DEFINITION. The state: every piece 10_state.md gives the block and 43_interfaces.md R180 gives the host, as plain data;
why a step can stop; and the state after reset (R230).
-/

namespace Sys2Proof.Machine

/-- `ENG_CFG`, internal register 0x10: its fields; bits [3:2] and [31:10] are reserved and 0 (R27). -/
structure EngCfg where
  en : Bool
  tcie : Bool
  dir : Bool
  circ : Bool
  pinc : Bool
  minc : Bool
  size : BitVec 2
  deriving DecidableEq, Repr

/-- `TMR_CTRL`, internal register 0x20: its fields; bits [31:3] are reserved and 0 (R31). -/
structure TmrCtrl where
  en : Bool
  reqEn : Bool
  oe : Bool
  deriving DecidableEq, Repr

/-- `ENG_SRC`, internal register 0x12 (R29). -/
inductive EngSrc where
  | none | buf
  deriving DecidableEq, Repr

/-- `ENG_DST`, internal register 0x13 (R29). -/
inductive EngDst where
  | none | tmrCmp
  deriving DecidableEq, Repr

/-- `STATUS`, `BLK_STATUS[8]`: 0 is OK, 1 is TIMED_OUT (R38). -/
inductive TxStatus where
  | ok | timedOut
  deriving DecidableEq, Repr

/-- The block's fault codes (R39). Recording one is a next state (R201), not a stop of the model. -/
inductive FaultCode where
  | illegalCommand | notInitialized | doubleInit | busy | indexRange
  deriving DecidableEq, Repr

/-- The response kinds (R88). -/
inductive RespKind where
  | ack | color | done
  deriving DecidableEq, Repr

/-- Why a step stops. -/
inductive Fault where
  /-- Raised by every instruction and every step once a fault is recorded in `BLK_FAULT`: "no agent of the block has an
  enabled step" (R201). Safe: it is the stuck state the spec describes. -/
  | quiescent
  /-- Raised by GET_PIXEL and ENGINE_SERVICE when the element they would read does not exist: only in a state whose
  stores have not their lengths or whose `CNT` is above `LEN`, which no run reaches (R62). Safe: the model stops. -/
  | absentElement
  deriving DecidableEq, Repr

/-- Why a step is refused. -/
inductive Refusal where
  /-- Raised by exec alone, for an instruction that has no meaning yet; no arm raises it now. Safe. -/
  | notModelled (mnemonic : String)
  deriving DecidableEq, Repr

/-- The state. The fields down to `periods` are the spec's; `hostProg`, `hostAwait` and `second` are the issuers' side
of R180; `cfg` is the configuration (log entry 1); `sched` and `moves` give the order of the agents' moves (log entry 3). -/
structure State where
  /-- The configuration of R6. No step writes it. -/
  cfg : Config
  /-- `INIT_DONE`, `BLK_STATUS[0]` (R23). -/
  initDone : Bool
  /-- `PHASE`, `BLK_STATUS[7:4]` (R21). -/
  phase : Phase
  /-- `STATUS`, `BLK_STATUS[8]` (R38). -/
  status : TxStatus
  /-- `BLK_FAULT`, 0x01 (R39). -/
  blkFault : BitVec 32
  /-- `POLLS`, 0x02 (R37). -/
  polls : Nat
  /-- `FAULT_CMD`, 0x03 (R46). -/
  faultCmd : CmdWord
  /-- `ENG_CFG`, 0x10 (R27). -/
  engCfg : EngCfg
  /-- `ENG_CNT.CNT`, 0x11 (R28). -/
  engCnt : Nat
  /-- `ENG_SRC`, 0x12 (R29). -/
  engSrc : EngSrc
  /-- `ENG_DST`, 0x13 (R29). -/
  engDst : EngDst
  /-- `ENG_FLAG.TC`, 0x14 bit 0 (R30). -/
  tc : Bool
  /-- `TMR_CTRL`, 0x20 (R31). -/
  tmrCtrl : TmrCtrl
  /-- `TMR_PERIOD`, 0x21 (R32). -/
  tmrPeriod : BitVec 16
  /-- `TMR_CMP`, 0x22 (R34). -/
  tmrCmp : Elem
  /-- `PIN_CFG.MODE`, 0x30 bit 0 (R35). -/
  pinMode : Bool
  /-- `REQ_PENDING` (R33). -/
  reqPending : Bool
  /-- `FS`, the Frame Store (R24). -/
  fs : List Color
  /-- `BUF`, the pulse timing buffer (R25). -/
  buf : List Elem
  /-- `CMD_IN` (R41). -/
  cmdIn : Option CmdWord
  /-- `RESP` (R41). -/
  resp : Option RespWord
  /-- `EMITTED` (R40). -/
  emitted : List Elem
  /-- `PERIODS` (R40). -/
  periods : List Elem
  /-- The words of the host program not yet presented (R180). -/
  hostProg : List CmdWord
  /-- The host has presented a word and not yet taken its response (R180). -/
  hostAwait : Bool
  /-- The words of the second issuer not yet presented (R180). -/
  second : List CmdWord
  /-- The agents that move next, first first (R208). -/
  sched : List Agent
  /-- How many moves agents have made: the argument of the free value `Config.freeAgent`. -/
  moves : Nat
  deriving DecidableEq, Repr

/-- The state after reset in configuration `c` (R230). `head` gives the entries `0 … 24×N-1` of `BUF`, which the spec
leaves unspecified (R25). -/
def State.resetOf (c : Config) (head : Nat → Elem) : State where
  cfg := c
  initDone := false
  phase := .idle
  status := .ok
  blkFault := 0#32
  polls := 0
  faultCmd := 0
  engCfg := { en := false, tcie := false, dir := false, circ := false, pinc := false, minc := false, size := 0 }
  engCnt := 0
  engSrc := .none
  engDst := .none
  tc := false
  tmrCtrl := { en := false, reqEn := false, oe := false }
  tmrPeriod := 0
  tmrCmp := 0
  pinMode := false
  reqPending := false
  fs := List.replicate c.n ⟨0, 0, 0⟩
  buf := (List.range c.dataLen).map head ++ List.replicate c.r 0
  cmdIn := none
  resp := none
  emitted := []
  periods := []
  hostProg := []
  hostAwait := false
  second := []
  sched := []
  moves := 0

/-- The state after reset. DESIGN CHOICE: the configuration is the spec's EX (log entry 1), and the unspecified entries
of `BUF` are 0 (log entry 2). -/
def State.reset : State := State.resetOf Config.ex (fun _ => 0)

end Sys2Proof.Machine
end

