-- ==== Sys2Proof/Machine/Flags.lean ====
section
/-!
DEFINITION. The block's flags (R43): their bit positions, and how each is set and cleared. The block has no condition
codes. Each operation writes the one flag it names and nothing else.
-/

namespace Sys2Proof.Machine

/-- The bit of `BLK_FAULT` that a fault code sets (R39). -/
def faultBit : FaultCode → Nat
  | .illegalCommand => 0
  | .notInitialized => 1
  | .doubleInit => 2
  | .busy => 3
  | .indexRange => 4

/-- `BLK_FAULT` with exactly this code's bit set (R39). -/
def faultMask (code : FaultCode) : BitVec 32 := 1#32 <<< faultBit code

/-- `BLK_FAULT[bit(CODE)] <- 1`: the other bits keep their values (R201). -/
def setFault (code : FaultCode) (s : State) : State := { s with blkFault := s.blkFault ||| faultMask code }

/-- Whether a fault is recorded (R201). -/
def faulted (s : State) : Bool := s.blkFault != 0#32

/-- `ENG_FLAG.TC <- v` (R30). -/
def setTc (v : Bool) (s : State) : State := { s with tc := v }

/-- `REQ_PENDING <- v` (R33). -/
def setReqPending (v : Bool) (s : State) : State := { s with reqPending := v }

/-- `STATUS` as a bit (R38). -/
def statusBit : TxStatus → BitVec 1
  | .ok => 0#1
  | .timedOut => 1#1

end Sys2Proof.Machine
end

