-- ==== Sys2Proof/Machine/Operands.lean ====
section
/-!
DEFINITION. The operand forms: an index, which addresses one Color of the Frame Store (R60, R82), and a Color, given
whole or as three channels (R83); and the payloads of responses (R88).
-/

namespace Sys2Proof.Machine

/-- The pixel index an IDX field gives: unsigned, neither scaled nor offset (R82). -/
def pixelIndex (idx : BitVec 16) : Nat := idx.toNat

/-- Whether an index names a pixel, `index < N` (R101). -/
def indexInRange (idx : BitVec 16) (s : State) : Bool := pixelIndex idx < s.cfg.n

/-- The Color that three channel operands give, in the order red, green, blue (R83). -/
def channels (r g b : Byte) : Color := ⟨r, g, b⟩

/-- The payload of a COLOR response, `{r, g, b}` (R88). -/
def colorPayload (c : Color) : BitVec 24 := c.r ++ c.g ++ c.b

/-- The code of a response kind (R88). -/
def kindCode : RespKind → BitVec 8
  | .ack => 0x01#8
  | .color => 0x02#8
  | .done => 0x03#8

/-- The response word `{KIND[7:0], payload[23:0]}` (R88). -/
def respWord (kind : RespKind) (payload : BitVec 24) : RespWord := kindCode kind ++ payload

/-- The SIZE code of an element width (R27). -/
def sizeCode : ElemWidth → BitVec 2
  | .bits8 => 0b00#2
  | .bits16 => 0b01#2
  | .bits32 => 0b10#2

end Sys2Proof.Machine
end

