-- ==== Sys2Proof/Machine/Ops.lean ====
section
/-!
DEFINITION. The named operations over stores and registers (R10), recording a fault (R201), and the three forms every
meaning has: a host command behind the checks of R207, a controller step in its phase (R152), a step of a block in
which no fault is recorded (R201). There is no return from a fault (R210).
-/

namespace Sys2Proof.Machine

/-- What a step answers. -/
abbrev Result := Host.Outcome State Fault Refusal

/-- A step that is not enabled is not taken: the state stays as it is (log entry 5). -/
def hold (s : State) : Result := .next s

/-- `phase <- P` (R10). -/
def setPhase (p : Phase) (s : State) : State := { s with phase := p }

/-- `respond(KIND, payload)` (R88). -/
def respond (kind : RespKind) (payload : BitVec 24) (s : State) : State :=
  { s with resp := some (respWord kind payload) }

/-- A command is consumed when it executes (R41). -/
def consume (s : State) : State := { s with cmdIn := none }

/-- `raise Fault(CODE)` for the presented word `w`: the bit, the word, `CMD_IN` emptied, and nothing else (R201). -/
def raiseFault (code : FaultCode) (w : CmdWord) (s : State) : State :=
  { setFault code s with faultCmd := w, cmdIn := none }

/-- `log_write(v)` (R10). -/
def logWrite (v : Elem) (s : State) : State := { s with emitted := s.emitted ++ [v] }

/-- `log_period(v)` (R10). -/
def logPeriod (v : Elem) (s : State) : State := { s with periods := s.periods ++ [v] }

/-! ## The stores -/

/-- `FS[i]`; none where the store has no such Color. -/
def fsRead (s : State) (i : Nat) : Option Color := s.fs[i]?

/-- `FS[i] <- c`, for `i < N`. -/
def fsWrite (i : Nat) (c : Color) (s : State) : State := { s with fs := s.fs.set i c }

/-- `FS[i] <- c` for every `i < N` (R104). -/
def fsFill (c : Color) (s : State) : State := { s with fs := List.replicate s.cfg.n c }

/-- `MemRead(j, ELEM_BITS/8)`; none where the buffer has no such element. -/
def memRead (s : State) (j : Nat) : Option Elem := s.buf[j]?

/-- `MemWrite(j, ELEM_BITS/8, es[j])` for every `j < LEN` in one step (R143). -/
def memWriteAll (es : List Elem) (s : State) : State := { s with buf := es }

/-- The stores have their lengths, `N` Colors and `LEN` elements: the one form a store has (log entry 8). -/
def State.memWf (s : State) : Bool := s.fs.length == s.cfg.n && s.buf.length == s.cfg.len

/-! ## The three forms of a meaning -/

/-- Once a fault is recorded no agent has an enabled step (R201). -/
def whenLive (s : State) (k : Result) : Result := if faulted s then .fault .quiescent else k

/-- The index a command reads a pixel at: GET_PIXEL's, the only one whose range is checked with a fault (R206). -/
def checkedIndex : Instr → Option (BitVec 16)
  | .getPixel idx => some idx
  | .init | .setPixel _ _ | .setPixelChannels _ _ _ _ | .fill _ | .transmit => none
  | .encode | .engDisable | .engLoad | .engEnable | .tmrEnable | .wait | .clearTc | .tmrDisable | .abort => none
  | .timerPeriod | .engineService => none

/-- The checks on a presented command, in the order of R207: the first that applies gives its fault. -/
def firstFault (i : Instr) (s : State) : Option FaultCode :=
  if i.wellFormed s.cfg = false then some .illegalCommand
  else if s.phase ≠ .idle then some .busy
  else if i = .init ∧ s.initDone = true then some .doubleInit
  else if i ≠ .init ∧ s.initDone = false then some .notInitialized
  else if (checkedIndex i).any (fun idx => !indexInRange idx s) then some .indexRange
  else none

/-- A host command (R80, R207): the first fault that applies is recorded, or the word is consumed and `k` runs. -/
def command (i : Instr) (k : State → Result) (s : State) : Result :=
  whenLive s <|
    match firstFault i s with
    | some code => .next (raiseFault code (commandWord i) s)
    | none => k (consume s)

/-- A controller step: enabled when no fault is recorded and `PHASE` names it (R152). -/
def phaseStep (p : Phase) (k : State → Result) (s : State) : Result :=
  whenLive s <| if s.phase = p then k s else hold s

end Sys2Proof.Machine
end

