-- ==== Sys2Proof/Machine/Boundary.lean ====
section
/-! DEFINITION. The two agents at the hardware boundary: the PWM timer and the transfer engine (43_interfaces.md). -/

namespace Sys2Proof.Machine

/-- When the timer's period event is enabled, in a block without a recorded fault (R175, R177). -/
def periodEnabled (s : State) : Bool := s.tmrCtrl.en && !s.reqPending

/-- What a period event does: it logs the compare value that governed the period, and raises one request (R175). -/
def periodEvent (s : State) : State :=
  let t := logPeriod s.tmrCmp s
  if t.tmrCtrl.reqEn then setReqPending true t else t

/-- TIMER_PERIOD (R175). -/
def execTimerPeriod (s : State) : Result :=
  whenLive s <| if periodEnabled s then .next (periodEvent s) else hold s

/-- The element the engine transfers next, `BUF[LEN - CNT]`; none for a count above `LEN`, whose position would lie
before the buffer (R176, R62). -/
def sourceElement (s : State) : Option Elem :=
  if s.engCnt ≤ s.cfg.len then memRead s (s.cfg.len - s.engCnt) else none

/-- `TMR_CMP <- v`, the write logged, the count down by one, and `TC` set when it reaches 0 (R176). -/
def transferElement (v : Elem) (s : State) : State :=
  let t := logWrite v { s with tmrCmp := v, engCnt := s.engCnt - 1 }
  if t.engCnt = 0 then setTc true t else t

/-- One transfer (R176). -/
def transfer (s : State) : Result :=
  match sourceElement s with
  | some v => .next (transferElement v s)
  | none => .fault .absentElement

/-- The engine resolves a request: a transfer, or the request is dropped (R176). -/
def resolveRequest (s : State) : Result :=
  if s.engCfg.en = true ∧ 0 < s.engCnt then transfer s else .next s

/-- ENGINE_SERVICE (R176). -/
def execEngineService (s : State) : Result :=
  whenLive s <| if s.reqPending then resolveRequest (setReqPending false s) else hold s

end Sys2Proof.Machine
end

