-- ==== Sys2Proof/Machine/FrameStore.lean ====
section
/-! DEFINITION. The Frame Store commands (40_frame_store.md). -/

namespace Sys2Proof.Machine

/-- The common effect of the two setters: a write in range, nothing out of range, and ACK either way (R101). -/
def setPixelEffect (idx : BitVec 16) (color : Color) (s : State) : Result :=
  .next (respond .ack 0 (if indexInRange idx s then fsWrite (pixelIndex idx) color s else s))

/-- SET_PIXEL (R102). -/
def execSetPixel (idx : BitVec 16) (color : Color) (s : State) : Result :=
  command (.setPixel idx color) (setPixelEffect idx color) s

/-- SET_PIXEL_CHANNELS (R103). -/
def execSetPixelChannels (idx : BitVec 16) (r g b : Byte) (s : State) : Result :=
  command (.setPixelChannels idx r g b) (setPixelEffect idx (channels r g b)) s

/-- FILL (R104). -/
def execFill (color : Color) (s : State) : Result :=
  command (.fill color) (fun s => .next (respond .ack 0 (fsFill color s))) s

/-- GET_PIXEL (R106); its INDEX_RANGE fault stands among the checks of R207. -/
def execGetPixel (idx : BitVec 16) (s : State) : Result :=
  command (.getPixel idx) (fun s =>
    match fsRead s (pixelIndex idx) with
    | some color => .next (respond .color (colorPayload color) s)
    | none => .fault .absentElement) s

end Sys2Proof.Machine
end

