-- ==== Sys2Proof/Machine/Init.lean ====
section
/-! DEFINITION. The initialization command INIT (R170). -/

namespace Sys2Proof.Machine

/-- The engine's configuration as INIT writes it; `EN` keeps its value (R170). -/
def initEngCfg (e : EngCfg) : EngCfg :=
  { en := e.en, tcie := false, dir := true, circ := false, pinc := false, minc := true, size := sizeCode Config.elemWidth }

/-- The timer's control register as INIT writes it; `EN` keeps its value (R170). -/
def initTmrCtrl (t : TmrCtrl) : TmrCtrl := { en := t.en, reqEn := true, oe := true }

/-- What INIT writes (R170). -/
def configure (s : State) : State :=
  { s with
    pinMode := true
    tmrPeriod := BitVec.ofNat 16 s.cfg.period
    tmrCmp := 0
    tmrCtrl := initTmrCtrl s.tmrCtrl
    engCfg := initEngCfg s.engCfg
    engSrc := .buf
    engDst := .tmrCmp
    initDone := true }

/-- INIT (R170). -/
def execInit (s : State) : Result := command .init (fun s => .next (respond .ack 0 (configure s))) s

end Sys2Proof.Machine
end

