-- ==== Sys2Proof/Machine/Encoder.lean ====
section
/-!
DEFINITION. The pulse encoder: the pure function `enc` from a Frame Store to a pulse timing buffer (R120 to R123), and
`dec`, which is no step of the block and stands for claims (R125).
-/

namespace Sys2Proof.Machine

/-- `pack24(c) = (c.g << 16) | (c.r << 8) | c.b` (R120). -/
def pack24 (c : Color) : BitVec 24 :=
  (c.g.setWidth 24 <<< 16) ||| (c.r.setWidth 24 <<< 8) ||| c.b.setWidth 24

/-- The pulse-width value of a bit 1, as `BUF` holds it. -/
def pulseOne (c : Config) : Elem := BitVec.ofNat 16 c.pwOne

/-- The pulse-width value of a bit 0, as `BUF` holds it. -/
def pulseZero (c : Config) : Elem := BitVec.ofNat 16 c.pwZero

/-- `pulse(bit)` (R121). -/
def pulse (c : Config) (bit : Bool) : Elem := if bit then pulseOne c else pulseZero c

/-- The 24 entries of one pixel, most-significant bit first (R121). -/
def pixelPulses (c : Config) (color : Color) : List Elem :=
  (List.range 24).map fun k => pulse c ((pack24 color).getLsbD (23 - k))

/-- `enc(FS)`: the pixels in index order, then `R` zeros (R121, R122, R123). -/
def enc (c : Config) (fs : List Color) : List Elem := fs.flatMap (pixelPulses c) ++ List.replicate c.r 0

/-- The bits that the first 24 entries of a list carry, the first entry the most significant (R125). DESIGN CHOICE: an
entry that the list does not have counts as a bit 0, where R125 gives no value (log entry 18). -/
def pulsesWord (c : Config) (pulses : List Elem) : BitVec 24 :=
  BitVec.ofNat 24 <| ((List.range 24).map fun k =>
    if pulses[k]? = some (pulseOne c) then 2 ^ (23 - k) else 0).sum

/-- The Color whose `pack24` is `w` (R125). -/
def unpack24 (w : BitVec 24) : Color := ⟨w.extractLsb' 8 8, w.extractLsb' 16 8, w.extractLsb' 0 8⟩

/-- `dec(buf)`: the `N` Colors that a buffer carries (R125). For a list shorter than `24 × N` entries, of which R125 says
nothing, the missing bits are 0 (DESIGN CHOICE, log entry 18). -/
def dec (c : Config) (buf : List Elem) : List Color :=
  (List.range c.n).map fun p => unpack24 (pulsesWord c (buf.drop (24 * p)))

end Sys2Proof.Machine
end

