-- ==== Sys2Proof/Machine/Transmitter.lean ====
section
/-! DEFINITION. TRANSMIT and the nine steps of the transmitter controller (42_transmitter.md). -/

namespace Sys2Proof.Machine

/-- `ENG_CFG.EN <- v`. -/
def setEngEn (v : Bool) (s : State) : State := { s with engCfg := { s.engCfg with en := v } }

/-- `TMR_CTRL.EN <- v`. -/
def setTmrEn (v : Bool) (s : State) : State := { s with tmrCtrl := { s.tmrCtrl with en := v } }

/-- `ENG_CNT.CNT <- n`. -/
def setEngCnt (n : Nat) (s : State) : State := { s with engCnt := n }

/-- `POLLS <- n`. -/
def setPolls (n : Nat) (s : State) : State := { s with polls := n }

/-- `POLLS <- 0`, only when `WAIT_BOUND = some B` (R142). -/
def clearPolls (s : State) : State := if s.cfg.waitBound.isSome then setPolls 0 s else s

/-- `respond(DONE, STATUS)`: bit 0 of the payload is the status, the others 0 (R88). -/
def respondDone (st : TxStatus) (s : State) : State := respond .done ((statusBit st).setWidth 24) s

/-- TRANSMIT (R142); its response comes from TMR_DISABLE or ABORT. -/
def execTransmit (s : State) : Result :=
  command .transmit (fun s => .next (setPhase .encode (clearPolls s))) s

/-- ENCODE (R143). -/
def execEncode (s : State) : Result :=
  phaseStep .encode (fun s => .next (setPhase .engDisable (memWriteAll (enc s.cfg s.fs) s))) s

/-- ENG_DISABLE (R144). -/
def execEngDisable (s : State) : Result :=
  phaseStep .engDisable (fun s => .next (setPhase .engLoad (setEngEn false s))) s

/-- ENG_LOAD (R145). -/
def execEngLoad (s : State) : Result :=
  phaseStep .engLoad (fun s => .next (setPhase .engEnable (setEngCnt s.cfg.len s))) s

/-- ENG_ENABLE (R146). -/
def execEngEnable (s : State) : Result :=
  phaseStep .engEnable (fun s => .next (setPhase .tmrEnable (setEngEn true s))) s

/-- TMR_ENABLE (R147). -/
def execTmrEnable (s : State) : Result :=
  phaseStep .tmrEnable (fun s => .next (setPhase .wait (setTmrEn true s))) s

/-- A poll of WAIT that finds `TC = 0`: the hold without a bound, a counted poll with one (R148). -/
def failedPoll (s : State) : Result :=
  match s.cfg.waitBound with
  | none => hold s
  | some b =>
    let t := setPolls (s.polls + 1) s
    .next (if t.polls = b then setPhase .abort t else t)

/-- WAIT (R148). -/
def execWait (s : State) : Result :=
  phaseStep .wait (fun s => if s.tc then .next (setPhase .clearTc s) else failedPoll s) s

/-- CLEAR_TC (R149). -/
def execClearTc (s : State) : Result :=
  phaseStep .clearTc (fun s => .next (setPhase .tmrDisable (setTc false s))) s

/-- What TMR_DISABLE writes before its response: the timer off, `STATUS` OK, IDLE (R150). -/
def endTransmission (s : State) : State :=
  { s with tmrCtrl := { s.tmrCtrl with en := false }, status := .ok, phase := .idle }

/-- TMR_DISABLE (R150). -/
def execTmrDisable (s : State) : Result :=
  phaseStep .tmrDisable (fun s => .next (respondDone .ok (endTransmission s))) s

/-- What ABORT writes before its response: timer and engine off, `CNT`, `TC` and `TMR_CMP` cleared, `STATUS` TIMED_OUT,
IDLE (R151). -/
def abortTransmission (s : State) : State :=
  { s with
    tmrCtrl := { s.tmrCtrl with en := false }
    engCfg := { s.engCfg with en := false }
    engCnt := 0
    tc := false
    tmrCmp := 0
    status := .timedOut
    phase := .idle }

/-- ABORT (R151). -/
def execAbort (s : State) : Result :=
  phaseStep .abort (fun s => .next (respondDone .timedOut (abortTransmission s))) s

end Sys2Proof.Machine
end

