-- ==== Sys2Proof/Machine/Dispatch.lean ====
section
/-! DEFINITION. Execution of one instruction: one arm for each constructor of Instr. -/

namespace Sys2Proof.Machine

def exec (i : Instr) (s : State) : Host.Outcome State Fault Refusal :=
  match i with
  | .init => Sys2Proof.Machine.execInit s
  | .setPixel idx color => Sys2Proof.Machine.execSetPixel idx color s
  | .setPixelChannels idx r g b => Sys2Proof.Machine.execSetPixelChannels idx r g b s
  | .fill color => Sys2Proof.Machine.execFill color s
  | .transmit => Sys2Proof.Machine.execTransmit s
  | .getPixel idx => Sys2Proof.Machine.execGetPixel idx s
  | .encode => Sys2Proof.Machine.execEncode s
  | .engDisable => Sys2Proof.Machine.execEngDisable s
  | .engLoad => Sys2Proof.Machine.execEngLoad s
  | .engEnable => Sys2Proof.Machine.execEngEnable s
  | .tmrEnable => Sys2Proof.Machine.execTmrEnable s
  | .wait => Sys2Proof.Machine.execWait s
  | .clearTc => Sys2Proof.Machine.execClearTc s
  | .tmrDisable => Sys2Proof.Machine.execTmrDisable s
  | .abort => Sys2Proof.Machine.execAbort s
  | .timerPeriod => Sys2Proof.Machine.execTimerPeriod s
  | .engineService => Sys2Proof.Machine.execEngineService s

end Sys2Proof.Machine
end

