-- ==== Sys2Proof/Machine/Fetch.lean ====
section
/-!
DEFINITION. What the next step does: a presented command word first (R80), otherwise the move of the agent whose turn it
is (R208); and the moves of the two issuers of commands (R180). Also where the host's numbering of a table word puts
that word.
-/

namespace Sys2Proof.Machine

/-- The agent whose move is next: the first of the state's list, or the free value where the list is empty (log entry 3). -/
def nextAgent (s : State) : Agent :=
  match s.sched with
  | a :: _ => a
  | [] => Config.freeAgent s.moves

/-- A move is used up. -/
def advance (s : State) : State := { s with sched := s.sched.tail, moves := s.moves + 1 }

/-- The host's move: it takes a response if there is one, which empties `RESP`; otherwise, if it waits for no response
and `CMD_IN` is empty, it presents its next word (R180). DESIGN CHOICE: it may take a response in every phase, in flight
too, where R72 names the controller, the timer and the engine alone (log entry 17). -/
def hostMove (s : State) : State :=
  match s.resp with
  | some _ => { s with resp := none, hostAwait := false }
  | none =>
    match s.hostAwait, s.cmdIn, s.hostProg with
    | false, none, w :: ws => { s with cmdIn := some w, hostProg := ws, hostAwait := true }
    | false, none, [] => s
    | false, some _, _ => s
    | true, _, _ => s

/-- The second issuer's move: it presents its next word if `CMD_IN` is empty (R180). -/
def secondMove (s : State) : State :=
  match s.cmdIn, s.second with
  | none, w :: ws => { s with cmdIn := some w, second := ws }
  | none, [] => s
  | some _, _ => s

/-- What a step does. -/
inductive Fetched where
  /-- The step stops. -/
  | stuck (r : Fault)
  /-- The step is an issuer's move, a step that is not enabled, or an illegal word's fault; the next state is given. -/
  | moved (t : State)
  /-- The step runs an instruction in the given state. -/
  | run (i : Instr) (t : State)
  deriving DecidableEq, Repr

/-- A presented word: the instruction it decodes to, or ILLEGAL_COMMAND (R80, R207). -/
def fetchWord (w : CmdWord) (s : State) : Fetched :=
  match decodeCommand s.cfg.hasGetter w with
  | .ok i => .run i s
  | .error _ => .moved (raiseFault .illegalCommand w s)

/-- The move of agent `a`. The controller runs the step its `PHASE` names and none in IDLE (R140, R152). -/
def fetchMove (a : Agent) (s : State) : Fetched :=
  match a with
  | .host => .moved (hostMove s)
  | .second => .moved (secondMove s)
  | .controller =>
    match decodePhase (phaseCode s.phase) with
    | .ok i => .run i s
    | .error _ => .moved s
  | .timer => .run (decodeEvent 0#1) s
  | .engine => .run (decodeEvent 1#1) s

/-- What the next step does. Nothing follows a fault (R201); a presented word executes before any agent moves, so the
presentation of a word and its execution have nothing between them (log entry 4). -/
def fetch (s : State) : Fetched :=
  if faulted s then .stuck .quiescent
  else
    match s.cmdIn with
    | some w => fetchWord w s
    | none => fetchMove (nextAgent s) (advance s)

/-- `s` with an encoding placed where the next step takes its instruction: a command word in `CMD_IN`, a phase code in
`PHASE` with the controller's move next, an agent event as that agent's move next. A reserved code has no place. -/
def placeEncoding (e : Encoding) (s : State) : State :=
  match e with
  | .command w => { s with cmdIn := some w }
  | .phase code =>
    match phaseOfCode code with
    | some p => { s with phase := p, cmdIn := none, sched := .controller :: s.sched }
    | none => s
  | .event id => { s with cmdIn := none, sched := (if id = 0#1 then .timer else .engine) :: s.sched }

/-- `s` with a table word placed (log entry 7). -/
def placeTableWord (nbits w : Nat) (s : State) : State :=
  match tableEncoding nbits w with
  | some e => placeEncoding e s
  | none => s

end Sys2Proof.Machine
end

