-- ==== Sys2Proof/Machine/Step.lean ====
section
/-! DEFINITION. One step of the machine, and the host's placing of a table word. -/

namespace Sys2Proof.Machine

/-- One step: what fetch says. -/
def step (s : State) : Host.Outcome State Fault Refusal :=
  match fetch s with
  | .stuck r => .fault r
  | .moved t => .next t
  | .run i t => exec i t

/-- `s` with the table word stored where step takes its next instruction. -/
def State.withFetchWord (s : State) (nbits w : Nat) : State := placeTableWord nbits w s

end Sys2Proof.Machine
end

