-- ==== Sys2Proof/Machine/Line.lean ====
section
/-!
DEFINITION. The meaning of the output line (R178): an interpretation of `PERIODS` and the state, not a step.
-/

namespace Sys2Proof.Machine

/-- The level of the line at each tick of one PWM period whose entry in `PERIODS` is `v`: high for the first
`min(v, PERIOD)` ticks, low for the rest (R178 items 1 and 2). -/
def wave (c : Config) (v : Elem) : List Bool :=
  List.replicate (min v.toNat c.period) true ++ List.replicate (c.period - min v.toNat c.period) false

/-- The line over every PWM period so far, tick by tick (R178). -/
def lineHistory (s : State) : List Bool := s.periods.flatMap (wave s.cfg)

/-- What the line is doing (R178). -/
inductive LineState where
  /-- Before INIT the block does not drive the line (item 4). -/
  | undriven
  /-- The timer is stopped and the line is low (item 3). -/
  | low
  /-- The timer runs, and each period follows its entry of `PERIODS` (item 1). -/
  | periods
  /-- The pin is configured, the timer runs, and the output does not drive the pin (`OE = 0`): the spec says nothing of
  it, and no run reaches it (R31: OE is 1 once initialized). -/
  | outputOff
  deriving DecidableEq, Repr

/-- What the line is doing in a state (R178). -/
def lineState (s : State) : LineState :=
  if s.pinMode = false then .undriven
  else if s.tmrCtrl.en = false then .low
  else if s.tmrCtrl.oe then .periods
  else .outputOff

/-- The level of the line at tick `k` where no period is playing: low while the timer is stopped, the free value before
INIT (log entry 10), and no level where R178 gives none. -/
def idleLevel (s : State) (k : Nat) : Option Bool :=
  match lineState s with
  | .undriven => some (Config.undrivenLevel k)
  | .low => some false
  | .periods => none
  | .outputOff => none

end Sys2Proof.Machine
end

