-- ==== Sys2Proof/Machine/Registers.lean ====
section
/-!
DEFINITION. The internal register space read as words, as a debugger would read it (R42, R45, R60): the packing of
10_state.md, reserved bits 0. No step of the block uses it, and nothing here writes.
-/

namespace Sys2Proof.Machine

/-- The internal registers (R45). -/
inductive Register where
  | blkStatus | blkFault | polls | faultCmd | engCfg | engCnt | engSrc | engDst | engFlag | tmrCtrl | tmrPeriod | tmrCmp | pinCfg
  deriving DecidableEq, Repr

/-- What a register reads as: a word of its width, or one of the two enumerations (R29). -/
inductive RegValue where
  | word16 (v : BitVec 16)
  | word32 (v : BitVec 32)
  | word64 (v : BitVec 64)
  | src (v : EngSrc)
  | dst (v : EngDst)
  deriving DecidableEq, Repr

/-- The register numbers (R45); every other number is unused. -/
def Register.number : Register → Nat
  | .blkStatus => 0x00
  | .blkFault => 0x01
  | .polls => 0x02
  | .faultCmd => 0x03
  | .engCfg => 0x10
  | .engCnt => 0x11
  | .engSrc => 0x12
  | .engDst => 0x13
  | .engFlag => 0x14
  | .tmrCtrl => 0x20
  | .tmrPeriod => 0x21
  | .tmrCmp => 0x22
  | .pinCfg => 0x30

/-- A flag as one bit. -/
def flagBit (b : Bool) : BitVec 1 := BitVec.ofBool b

/-- `BLK_STATUS`: INIT_DONE [0], PHASE [7:4], STATUS [8] (R45). -/
def blkStatusWord (s : State) : BitVec 32 :=
  0#23 ++ statusBit s.status ++ phaseCode s.phase ++ 0#3 ++ flagBit s.initDone

/-- `ENG_CFG` (R27). -/
def engCfgWord (e : EngCfg) : BitVec 32 :=
  0#22 ++ e.size ++ flagBit e.minc ++ flagBit e.pinc ++ flagBit e.circ ++ flagBit e.dir ++ 0#2 ++ flagBit e.tcie ++ flagBit e.en

/-- `TMR_CTRL` (R31). -/
def tmrCtrlWord (t : TmrCtrl) : BitVec 32 := 0#29 ++ flagBit t.oe ++ flagBit t.reqEn ++ flagBit t.en

/-- `ENG_FLAG`: TC [0] (R30). -/
def engFlagWord (s : State) : BitVec 32 := 0#31 ++ flagBit s.tc

/-- `PIN_CFG`: MODE [0] (R35). -/
def pinCfgWord (s : State) : BitVec 32 := 0#31 ++ flagBit s.pinMode

/-- A register as it reads (R42); none for `POLLS` where the wait is unbounded, since it "exists only when
`WAIT_BOUND = some B`" (R37). -/
def readReg (s : State) : Register → Option RegValue
  | .blkStatus => some (.word32 (blkStatusWord s))
  | .blkFault => some (.word32 s.blkFault)
  | .polls => if s.cfg.waitBound.isSome then some (.word32 (BitVec.ofNat 32 s.polls)) else none
  | .faultCmd => some (.word64 s.faultCmd)
  | .engCfg => some (.word32 (engCfgWord s.engCfg))
  | .engCnt => some (.word16 (BitVec.ofNat 16 s.engCnt))
  | .engSrc => some (.src s.engSrc)
  | .engDst => some (.dst s.engDst)
  | .engFlag => some (.word32 (engFlagWord s))
  | .tmrCtrl => some (.word32 (tmrCtrlWord s.tmrCtrl))
  | .tmrPeriod => some (.word16 s.tmrPeriod)
  | .tmrCmp => some (.word16 s.tmrCmp)
  | .pinCfg => some (.word32 (pinCfgWord s))

/-- The registers in the order of R45. -/
def Register.all : List Register :=
  [.blkStatus, .blkFault, .polls, .faultCmd, .engCfg, .engCnt, .engSrc, .engDst, .engFlag, .tmrCtrl, .tmrPeriod, .tmrCmp, .pinCfg]

/-- The register space by number; none for an unused number (R45). -/
def readNumber (s : State) (number : Nat) : Option RegValue :=
  match Register.all.find? (fun r => r.number == number) with
  | some r => readReg s r
  | none => none

end Sys2Proof.Machine
end

