-- ==== Sys2Proof/Safety.lean ====
section
/-!
DEFINITION. What claims are stated in: when a command executes, runs from reset, the end of a run (R182), the phase
graph (R141), and the invariant every step keeps (R26, R27, R44, R174 and what they rest on).
-/

namespace Sys2Proof.Machine

/-- No fault is recorded (R201). -/
abbrev State.Live (s : State) : Prop := s.blkFault = 0#32

/-- When a Frame Store command or TRANSMIT executes: no fault is recorded, `PHASE = IDLE` and `INIT_DONE = 1` (R100, R142). -/
abbrev State.Ready (s : State) : Prop := s.Live ∧ s.phase = .idle ∧ s.initDone = true

/-- When INIT executes: no fault is recorded, `PHASE = IDLE` and `INIT_DONE = 0` (R170, R207). -/
abbrev State.Fresh (s : State) : Prop := s.Live ∧ s.phase = .idle ∧ s.initDone = false

/-- What the block does with a presented word: R207's `present(w)`. -/
def presentWord (w : CmdWord) (s : State) : Result :=
  match fetchWord w s with
  | .stuck r => .fault r
  | .moved t => .next t
  | .run i t => exec i t

/-- The faults of R207 that every command other than INIT has in common: BUSY outside IDLE (R205), NOT_INITIALIZED before
INIT (R203); each records the command's word and changes nothing else. -/
def CommonFaults (i : Instr) : Prop :=
  ∀ s : State, i.wellFormed s.cfg = true →
    (s.Live → s.phase ≠ .idle → exec i s = .next { s with blkFault := 0x08#32, faultCmd := commandWord i, cmdIn := none }) ∧
    (s.Fresh → exec i s = .next { s with blkFault := 0x02#32, faultCmd := commandWord i, cmdIn := none })

/-- The state after reset with an issuers' load: a host program, the second issuer's words and an order of moves (R180). -/
def State.boot (c : Config) (head : Nat → Elem) (prog second : List CmdWord) (sched : List Agent) : State :=
  { State.resetOf c head with hostProg := prog, second := second, sched := sched }

/-- The states that some run of an admissible configuration comes to, from reset, with any load and any order of moves. -/
def Reachable (s : State) : Prop :=
  ∃ c head prog second sched n, c.Admissible ∧ Sys2Proof.core.run n (State.boot c head prog second sched) = .next s

/-- The end of a run (R182). A state with a fault recorded is never an end. -/
abbrev State.Ended (s : State) : Prop :=
  s.hostProg = [] ∧ s.hostAwait = false ∧ s.resp = none ∧ s.second = [] ∧ s.cmdIn = none ∧ s.phase = .idle ∧ s.Live

/-- The edges of the phase graph, "all the transitions of `PHASE`" (R141). -/
def phaseEdge : Phase → Phase → Bool
  | .idle, .encode => true
  | .encode, .engDisable => true
  | .engDisable, .engLoad => true
  | .engLoad, .engEnable => true
  | .engEnable, .tmrEnable => true
  | .tmrEnable, .wait => true
  | .wait, .clearTc => true
  | .wait, .abort => true
  | .clearTc, .tmrDisable => true
  | .tmrDisable, .idle => true
  | .abort, .idle => true
  | _, _ => false

/-! ## The invariant -/

/-- The boundary contract: what INIT configured and no later step changes (R174, R27, R29, R31, R35). -/
abbrev State.Configured (s : State) : Prop :=
  s.pinMode = true ∧ s.tmrPeriod = BitVec.ofNat 16 s.cfg.period ∧ s.tmrCtrl.reqEn = true ∧ s.tmrCtrl.oe = true ∧
  s.engCfg.tcie = false ∧ s.engCfg.dir = true ∧ s.engCfg.circ = false ∧ s.engCfg.pinc = false ∧
  s.engCfg.minc = true ∧ s.engCfg.size = sizeCode Config.elemWidth ∧ s.engSrc = .buf ∧ s.engDst = .tmrCmp

/-- The block before INIT: everything but the stores and the fault record is as reset left it (R230, R203). -/
abbrev State.Unconfigured (s : State) : Prop :=
  s.phase = .idle ∧ s.status = .ok ∧ s.polls = 0 ∧
  s.engCfg = { en := false, tcie := false, dir := false, circ := false, pinc := false, minc := false, size := 0 } ∧
  s.engSrc = .none ∧ s.engDst = .none ∧ s.tmrCtrl = { en := false, reqEn := false, oe := false } ∧
  s.tmrPeriod = 0 ∧ s.pinMode = false ∧ s.reqPending = false ∧ s.fs = List.replicate s.cfg.n ⟨0, 0, 0⟩ ∧
  s.resp = none ∧ s.emitted = [] ∧ s.periods = []

/-- Timer stopped, count 0, no completion flag, compare value 0: the Idle invariant's four facts (R44). -/
abbrev State.Quiet (s : State) : Prop :=
  s.tmrCtrl.en = false ∧ s.engCnt = 0 ∧ s.tc = false ∧ s.tmrCmp = 0

/-- The engine part-way through the buffer: `LEN - CNT` elements transferred, `TC` exactly when all are, `TMR_CMP` the
last one transferred, or 0 when there is none (R176). -/
abbrev State.Transferring (s : State) : Prop :=
  s.engCnt ≤ s.cfg.len ∧ (s.tc = true ↔ s.engCnt = 0) ∧
  s.tmrCmp = if s.engCnt = s.cfg.len then 0 else s.buf.getD (s.cfg.len - s.engCnt - 1) 0

/-- `BUF` holds the encoding of the Frame Store (R73, R74). -/
abbrev State.Encoded (s : State) : Prop := s.buf = enc s.cfg s.fs

/-- What each phase finds (R141 to R151, R44). -/
abbrev State.PhaseFacts (s : State) : Prop :=
  match s.phase with
  | .idle => s.Quiet
  | .encode => s.Quiet
  | .engDisable => s.Quiet ∧ s.Encoded
  | .engLoad => s.Quiet ∧ s.Encoded ∧ s.engCfg.en = false
  | .engEnable =>
    s.Encoded ∧ s.engCfg.en = false ∧ s.tmrCtrl.en = false ∧ s.engCnt = s.cfg.len ∧ s.tc = false ∧ s.tmrCmp = 0
  | .tmrEnable =>
    s.Encoded ∧ s.engCfg.en = true ∧ s.tmrCtrl.en = false ∧ s.Transferring ∧
    (s.engCnt = s.cfg.len ∨ s.engCnt + 1 = s.cfg.len ∧ s.reqPending = false)
  | .wait => s.Encoded ∧ s.engCfg.en = true ∧ s.tmrCtrl.en = true ∧ s.Transferring
  | .abort => s.Encoded ∧ s.engCfg.en = true ∧ s.tmrCtrl.en = true ∧ s.Transferring
  | .clearTc =>
    s.Encoded ∧ s.engCfg.en = true ∧ s.tmrCtrl.en = true ∧ s.engCnt = 0 ∧ s.tc = true ∧ s.tmrCmp = 0
  | .tmrDisable =>
    s.Encoded ∧ s.engCfg.en = true ∧ s.tmrCtrl.en = true ∧ s.engCnt = 0 ∧ s.tc = false ∧ s.tmrCmp = 0

/-- What the poll counter is with an unbounded and with a bounded wait (R37, R38, R148, R151). -/
abbrev State.PollFacts (s : State) : Prop :=
  match s.cfg.waitBound with
  | none => s.polls = 0 ∧ s.status = .ok ∧ s.phase ≠ .abort
  | some b =>
    s.polls ≤ b ∧ (s.phase = .abort → s.polls = b) ∧ (s.phase ≠ .idle → s.phase ≠ .abort → s.polls < b)

/-- No fault, or exactly one of the five codes (R39, R46, R207). -/
abbrev State.FaultFacts (s : State) : Prop :=
  s.blkFault = 0#32 ∧ s.faultCmd = 0 ∨
  s.blkFault ∈ [FaultCode.illegalCommand, .notInitialized, .doubleInit, .busy, .indexRange].map faultMask ∧ s.cmdIn = none

/-- The invariant: an admissible configuration, stores of their lengths, the reset gap of `BUF` zero (R26), a legal fault
record, and what the spec says of the block before and after INIT, of the poll counter and of each phase. -/
structure State.Inv (s : State) : Prop where
  admissible : s.cfg.Admissible
  memory : s.memWf = true
  tail : s.buf.drop s.cfg.dataLen = List.replicate s.cfg.r 0
  fault : s.FaultFacts
  before : s.initDone = false → s.Unconfigured
  after : s.initDone = true → s.Configured
  poll : s.PollFacts
  phase : s.PhaseFacts

end Sys2Proof.Machine
end

