-- ==== Sys2Proof/Certificates/Slice0/Obligations.lean ====
section
/-!
DEFINITION. The statements for the provers. Each docstring names the rule of spec/ it formalises; a statement whose
source is marked [derived] in the spec says so.
-/

open Sys2Proof Sys2Proof.Machine

/-! ## Encoding and decoding -/

/-- The words of 95_test_vectors.md section 2.1, the phase codes and the event identifiers, as R84, R21 and R89 spell them. -/
def Obligations.TableWordsDecode : Prop :=
  (∀ g, decodeCommand g 0x0100000000000000#64 = .ok .init ∧
    decodeCommand g 0x0200000000FF0000#64 = .ok (.setPixel 0#16 ⟨255#8, 0#8, 0#8⟩) ∧
    decodeCommand g 0x0200FFFF00FFFFFF#64 = .ok (.setPixel 65535#16 ⟨255#8, 255#8, 255#8⟩) ∧
    decodeCommand g 0x030000010000FF00#64 = .ok (.setPixelChannels 1#16 0#8 255#8 0#8) ∧
    decodeCommand g 0x0400000000123456#64 = .ok (.fill ⟨0x12#8, 0x34#8, 0x56#8⟩) ∧
    decodeCommand g 0x0500000000000000#64 = .ok .transmit) ∧
  decodeCommand true 0x0600000200000000#64 = .ok (.getPixel 2#16) ∧
  decodeCommand false 0x0600000200000000#64 = .error .noGetter ∧
  decodePhase 0x1#4 = .ok .encode ∧ decodePhase 0x6#4 = .ok .wait ∧ decodePhase 0x9#4 = .ok .abort ∧
  decodeEvent 0#1 = .timerPeriod ∧ decodeEvent 1#1 = .engineService

/-- Decoding the encoding of an instruction gives it back, in every configuration in which it exists, with every operand
at every value, in all three formats ("Encoding a decoded command gives the word back", R92, marked [derived] there). -/
def Obligations.DecodeOfEncodeIsIdentity : Prop :=
  ∀ (c : Config) (i : Instr), i.wellFormed c = true → decode c.hasGetter (encode i) = .ok i

/-- The other direction: whatever decodes is the encoding of what it decodes to, so that "decoding loses no bit of a legal
word" (R92, marked [derived] there). -/
def Obligations.EncodeOfDecodeIsIdentity : Prop :=
  ∀ (g : Bool) (e : Encoding) (i : Instr), decode g e = .ok i → encode i = e

/-- R85 with R82 and R83: a word decodes to a command, with its operand fields read as unsigned bit ranges, exactly when it
agrees with the row's match on the row's mask. -/
def Obligations.WordSpellsCommandByMatchAndMask : Prop :=
  ∀ (g : Bool) (w : CmdWord),
    let idx := w.extractLsb' 32 16
    let r := w.extractLsb' 16 8
    let gr := w.extractLsb' 8 8
    let b := w.extractLsb' 0 8
    (decodeCommand g w = .ok .init ↔ w &&& 0xFFFFFFFFFFFFFFFF#64 = 0x0100000000000000#64) ∧
    (decodeCommand g w = .ok (.setPixel idx ⟨r, gr, b⟩) ↔ w &&& 0xFFFF0000FF000000#64 = 0x0200000000000000#64) ∧
    (decodeCommand g w = .ok (.setPixelChannels idx r gr b) ↔
      w &&& 0xFFFF0000FF000000#64 = 0x0300000000000000#64) ∧
    (decodeCommand g w = .ok (.fill ⟨r, gr, b⟩) ↔ w &&& 0xFFFFFFFFFF000000#64 = 0x0400000000000000#64) ∧
    (decodeCommand g w = .ok .transmit ↔ w &&& 0xFFFFFFFFFFFFFFFF#64 = 0x0500000000000000#64) ∧
    (decodeCommand g w = .ok (.getPixel idx) ↔
      g = true ∧ w &&& 0xFFFF0000FFFFFFFF#64 = 0x0600000000000000#64)

/-- R86: the illegal words are those with a reserved opcode, those with a valid opcode and a field that must be 0 and is
not, and those with OP 0x06 without a getter; and each raises ILLEGAL_COMMAND when it is presented. -/
def Obligations.IllegalWordsAreRejected : Prop :=
  (∀ (g : Bool) (w : CmdWord),
    let op := (w.extractLsb' 56 8).toNat
    (∃ r, decodeCommand g w = .error r) ↔
      op = 0 ∨ 7 ≤ op ∨
      (w.extractLsb' 48 8 ≠ 0#8 ∨ w.extractLsb' 24 8 ≠ 0#8 ∨
        (op = 1 ∨ op = 4 ∨ op = 5) ∧ w.extractLsb' 32 16 ≠ 0#16 ∨
        (op = 1 ∨ op = 5 ∨ op = 6) ∧ w.extractLsb' 0 24 ≠ 0#24) ∨
      op = 6 ∧ g = false) ∧
  (∀ (s : State) (w : CmdWord) (r : Reject), s.Live → decodeCommand s.cfg.hasGetter w = .error r →
    presentWord w s = .next { s with blkFault := 1#32, faultCmd := w, cmdIn := none })

/-- R21: the phase register's codes, each naming its phase; 0x0 is IDLE, which has no step, and 0xA to 0xF name nothing.
That every other bit of the word BLK_STATUS reads 0 is the model's (log entry 13). -/
def Obligations.PhaseCodesNameTheSteps : Prop :=
  (∀ p : Phase, phaseOfCode (phaseCode p) = some p) ∧
  [Phase.idle, .encode, .engDisable, .engLoad, .engEnable, .tmrEnable, .wait, .clearTc, .tmrDisable, .abort].map phaseCode
    = [0x0#4, 0x1#4, 0x2#4, 0x3#4, 0x4#4, 0x5#4, 0x6#4, 0x7#4, 0x8#4, 0x9#4] ∧
  (∀ code : BitVec 4, 0xA ≤ code.toNat → phaseOfCode code = none ∧ decodePhase code = .error .reservedPhase) ∧
  (∀ s : State, blkStatusWord s = blkStatusWord s &&& 0x1F1#32 ∧ (blkStatusWord s).extractLsb' 4 4 = phaseCode s.phase) ∧
  (∀ c head, (State.resetOf c head).phase = .idle)

/-- R90: a line assembles to the word of its command when every literal is in range, and is refused otherwise; no literal is
truncated. -/
def Obligations.AssemblerRefusesLiteralsOutOfRange : Prop :=
  AsmLine.word .init = some 0x0100000000000000#64 ∧
  AsmLine.word .transmit = some 0x0500000000000000#64 ∧
  ∀ idx r g b : Nat,
    let color : Color := ⟨BitVec.ofNat 8 r, BitVec.ofNat 8 g, BitVec.ofNat 8 b⟩
    let colorOk := r ≤ 255 ∧ g ≤ 255 ∧ b ≤ 255
    (idx ≤ 65535 ∧ colorOk →
      AsmLine.word (.setPixel idx r g b) = some (cmdWord 0x02#8 (BitVec.ofNat 16 idx) color) ∧
      AsmLine.word (.setPixelChannels idx r g b) = some (cmdWord 0x03#8 (BitVec.ofNat 16 idx) color)) ∧
    (¬ (idx ≤ 65535 ∧ colorOk) →
      AsmLine.word (.setPixel idx r g b) = none ∧ AsmLine.word (.setPixelChannels idx r g b) = none) ∧
    (colorOk → AsmLine.word (.fill r g b) = some (cmdWord 0x04#8 0#16 color)) ∧
    (¬ colorOk → AsmLine.word (.fill r g b) = none) ∧
    (idx ≤ 65535 → AsmLine.word (.getPixel idx) = some (cmdWord 0x06#8 (BitVec.ofNat 16 idx) ⟨0#8, 0#8, 0#8⟩)) ∧
    (65535 < idx → AsmLine.word (.getPixel idx) = none)

/-! ## The step -/

/-- R80: with a word in CMD_IN, the step is what R207 does with that word; where it decodes to an instruction, it is that
instruction's step with nothing around it. That it goes before every agent's move is the model's choice (log entry 4). -/
def Obligations.StepRunsThePresentedWord : Prop :=
  ∀ (s : State) (w : CmdWord), s.Live → s.cmdIn = some w →
    step s = presentWord w s ∧ ∀ i, decodeCommand s.cfg.hasGetter w = .ok i → step s = exec i s

/-- R152 and R89: with no word presented, the controller's move is the step its phase names, run after the move is used up;
the timer's and the engine's moves are their events. The model's choices: a list in the state gives the order of the moves
(log entry 3), and in IDLE, where the controller has no step, its move is a step that changes nothing else (log entry 5). -/
def Obligations.StepRunsTheAgentWhoseTurnItIs : Prop :=
  ∀ s : State, s.Live → s.cmdIn = none →
    (nextAgent s = .controller → s.phase = .idle → step s = .next (advance s)) ∧
    (∀ i, nextAgent s = .controller → i.phase? = some s.phase → step s = exec i (advance s)) ∧
    (nextAgent s = .timer → step s = exec .timerPeriod (advance s)) ∧
    (nextAgent s = .engine → step s = exec .engineService (advance s)) ∧
    (∀ a rest, s.sched = a :: rest → nextAgent s = a ∧ advance s = { s with sched := rest, moves := s.moves + 1 })

/-- R180: the host takes a response before it presents a word, taking it empties RESP, it presents only while it waits for
nothing, and each presented word leaves its program; the second issuer presents whenever CMD_IN is empty. The model's
choices: the host takes whatever response RESP holds, whoever caused it, also when it waits for none (log entry 6) and in
every phase (log entry 17), and an issuer with nothing to do leaves the state as it is (log entry 5). -/
def Obligations.IssuersPresentAndTake : Prop :=
  ∀ s : State, s.Live → s.cmdIn = none →
    let u := advance s
    (nextAgent s = .host →
      (∀ v, s.resp = some v → step s = .next { u with resp := none, hostAwait := false }) ∧
      (s.resp = none → s.hostAwait = true → step s = .next u) ∧
      (s.resp = none → s.hostAwait = false → s.hostProg = [] → step s = .next u) ∧
      (∀ w ws, s.resp = none → s.hostAwait = false → s.hostProg = w :: ws →
        step s = .next { u with cmdIn := some w, hostProg := ws, hostAwait := true })) ∧
    (nextAgent s = .second →
      (s.second = [] → step s = .next u) ∧
      (∀ w ws, s.second = w :: ws → step s = .next { u with cmdIn := some w, second := ws }))

/-! ## Faults -/

/-- R207: the checks on a presented word, in their order, each with the fault it records (R201), and nothing else changed;
a word that passes them all runs its command, which reaches a next state without a fault wherever the stores have their
lengths. -/
def Obligations.PresentedWordIsCheckedInOrder : Prop :=
  ∀ (s : State) (w : CmdWord), s.Live →
    let fault (bits : BitVec 32) : Result := .next { s with blkFault := bits, faultCmd := w, cmdIn := none }
    match decodeCommand s.cfg.hasGetter w with
    | .error _ => presentWord w s = fault 0x01#32
    | .ok c =>
      if s.phase ≠ .idle then presentWord w s = fault 0x08#32
      else if c = .init ∧ s.initDone = true then presentWord w s = fault 0x04#32
      else if c ≠ .init ∧ s.initDone = false then presentWord w s = fault 0x02#32
      else if ∃ idx, c = .getPixel idx ∧ s.cfg.n ≤ idx.toNat then presentWord w s = fault 0x10#32
      else presentWord w s = exec c s ∧ (s.memWf = true → ∃ t, exec c s = .next t ∧ t.Live ∧ t.cmdIn = none)

/-- R201: a fault sets its bit, records the word and empties CMD_IN; from then on no instruction and no step is taken, and
the state is never an end of a run. -/
def Obligations.FaultedBlockIsQuiescent : Prop :=
  (∀ (code : FaultCode) (w : CmdWord) (s : State),
    raiseFault code w s =
      { s with blkFault := s.blkFault ||| (1#32 <<< faultBit code), faultCmd := w, cmdIn := none } ∧
    ¬ (raiseFault code w s).Live) ∧
  [FaultCode.illegalCommand, .notInitialized, .doubleInit, .busy, .indexRange].map faultBit = [0, 1, 2, 3, 4] ∧
  ∀ s : State, ¬ s.Live → step s = .fault .quiescent ∧ (∀ i, exec i s = .fault .quiescent) ∧ ¬ s.Ended

/-- R46: a step records a fault only for a presented word, which it keeps in FAULT_CMD, with one code's bit and no other
change; every other step leaves BLK_FAULT and FAULT_CMD as they were, and reset leaves FAULT_CMD 0. -/
def Obligations.FaultRecordHoldsThePresentedWord : Prop :=
  (∀ c head, (State.resetOf c head).faultCmd = 0#64) ∧
  ∀ s t : State, step s = .next t →
    t.blkFault = s.blkFault ∧ t.faultCmd = s.faultCmd ∨
    ∃ (code : FaultCode) (w : CmdWord), s.cmdIn = some w ∧
      t = { s with blkFault := 1#32 <<< faultBit code, faultCmd := w, cmdIn := none }

/-- R231: however many steps a run takes, it clears no fault bit, no record in FAULT_CMD of a fault, and not INIT_DONE; reset
leaves all three clear, and the block then needs INIT again: every other command faults with NOT_INITIALIZED. -/
def Obligations.OnlyResetClearsFaultsAndInitDone : Prop :=
  (∀ (n : Nat) (s t : State), Sys2Proof.core.run n s = .next t →
    (∀ k, s.blkFault.getLsbD k = true → t.blkFault.getLsbD k = true) ∧
    (s.blkFault ≠ 0#32 → t.faultCmd = s.faultCmd) ∧ (s.initDone = true → t.initDone = true)) ∧
  (∀ c head, let s := State.resetOf c head
    s.blkFault = 0#32 ∧ s.faultCmd = 0#64 ∧ s.initDone = false ∧
    ∀ i : Instr, i.isCommand = true → i.wellFormed c = true → i ≠ .init →
      exec i s = .next { s with blkFault := 0x02#32, faultCmd := commandWord i, cmdIn := none })

/-! ## Initialization and reset -/

/-- R170: INIT's word, what it writes, that it writes nothing else, and its faults; with the example's register values. -/
def Obligations.InitConfiguresTheBlock : Prop :=
  encode .init = .command 0x0100000000000000#64 ∧
  (∀ s : State, s.Fresh → exec .init s = .next
    { s with
      pinMode := true, tmrPeriod := BitVec.ofNat 16 (s.cfg.sysclkHz / 800000), tmrCmp := 0#16,
      tmrCtrl := { s.tmrCtrl with reqEn := true, oe := true },
      engCfg := { s.engCfg with
        tcie := false, dir := true, circ := false, pinc := false, minc := true, size := 0b01#2 },
      engSrc := .buf, engDst := .tmrCmp, initDone := true, cmdIn := none, resp := some 0x01000000#32 }) ∧
  (∀ s : State, s.Live → s.phase = .idle → s.initDone = true → exec .init s = .next
    { s with blkFault := 0x04#32, faultCmd := 0x0100000000000000#64, cmdIn := none }) ∧
  (∀ (g : Bool) (w : CmdWord), w.extractLsb' 56 8 = 0x01#8 → w ≠ 0x0100000000000000#64 →
    ∃ r, decodeCommand g w = .error r) ∧
  (∀ head, ∃ t, exec .init (State.resetOf Config.ex head) = .next t ∧ t.initDone = true ∧ engCfgWord t.engCfg = 0x190#32 ∧ tmrCtrlWord t.tmrCtrl = 0x6#32 ∧
    t.tmrPeriod = 60#16 ∧ t.resp = some 0x01000000#32)

/-- R230: the value reset leaves in every piece of state, in every configuration and whatever the unspecified entries of BUF
hold (`head`). -/
def Obligations.ResetLeavesTheValuesOfTheTable : Prop :=
  ∀ (c : Config) (head : Nat → Elem), let s := State.resetOf c head
    s.cfg = c ∧ s.fs.length = c.n ∧ (∀ k, k < c.n → s.fs[k]? = some ⟨0#8, 0#8, 0#8⟩) ∧
    s.buf.length = c.len ∧ (∀ j, c.n * 24 ≤ j → j < c.len → s.buf[j]? = some 0#16) ∧
    (∀ j, j < c.n * 24 → s.buf[j]? = some (head j)) ∧
    blkStatusWord s = 0#32 ∧ s.blkFault = 0#32 ∧ s.faultCmd = 0#64 ∧ s.polls = 0 ∧
    engCfgWord s.engCfg = 0#32 ∧ s.engCnt = 0 ∧ s.engSrc = .none ∧ s.engDst = .none ∧ engFlagWord s = 0#32 ∧
    tmrCtrlWord s.tmrCtrl = 0#32 ∧ s.tmrPeriod = 0#16 ∧ s.tmrCmp = 0#16 ∧ pinCfgWord s = 0#32 ∧
    s.reqPending = false ∧ s.cmdIn = none ∧ s.resp = none ∧ s.emitted = [] ∧ s.periods = [] ∧ lineState s = .undriven

/-! ## The Frame Store -/

/-- R102: SET_PIXEL writes one pixel in range, ignores an index out of range, and acknowledges both; nothing else changes,
and its faults are NOT_INITIALIZED and BUSY alone (an illegal word is no SET_PIXEL). -/
def Obligations.SetPixelWritesOrIgnores : Prop :=
  (∀ (idx : BitVec 16) (color : Color), ∃ w, encode (.setPixel idx color) = .command w ∧
    w &&& 0xFFFF0000FF000000#64 = 0x0200000000000000#64 ∧ idxOf w = idx ∧ colorOf w = color) ∧
  (∀ idx color, CommonFaults (.setPixel idx color)) ∧
  ∀ (s : State) (idx : BitVec 16) (color : Color),
    (s.Ready → idx.toNat < s.cfg.n → exec (.setPixel idx color) s = .next
      { s with fs := s.fs.set idx.toNat color, cmdIn := none, resp := some 0x01000000#32 }) ∧
    (s.Ready → s.cfg.n ≤ idx.toNat → exec (.setPixel idx color) s = .next
      { s with cmdIn := none, resp := some 0x01000000#32 }) ∧
    (∀ t, exec (.setPixel idx color) s = .next t → t.blkFault = 0#32 ∨ t.blkFault = 0x02#32 ∨ t.blkFault = 0x08#32)

/-- R103 and R101: SET_PIXEL_CHANNELS stores exactly its three channels, red, green, blue; where it executes its effect is
SET_PIXEL's; and either setter out of range changes nothing but CMD_IN and RESP. -/
def Obligations.SetPixelChannelsWritesOrIgnores : Prop :=
  (∀ (idx : BitVec 16) (r g b : Byte), ∃ w, encode (.setPixelChannels idx r g b) = .command w ∧
    w &&& 0xFFFF0000FF000000#64 = 0x0300000000000000#64 ∧ idxOf w = idx ∧ colorOf w = ⟨r, g, b⟩) ∧
  (∀ idx r g b, CommonFaults (.setPixelChannels idx r g b)) ∧
  ∀ (s : State) (idx : BitVec 16) (r g b : Byte),
    (s.Ready → idx.toNat < s.cfg.n → exec (.setPixelChannels idx r g b) s = .next
      { s with fs := s.fs.set idx.toNat ⟨r, g, b⟩, cmdIn := none, resp := some 0x01000000#32 }) ∧
    (s.Ready → s.cfg.n ≤ idx.toNat → exec (.setPixelChannels idx r g b) s = .next
      { s with cmdIn := none, resp := some 0x01000000#32 }) ∧
    (s.Ready → s.cfg.n ≤ idx.toNat → exec (.setPixel idx ⟨r, g, b⟩) s = .next
      { s with cmdIn := none, resp := some 0x01000000#32 }) ∧
    (s.Ready → exec (.setPixelChannels idx r g b) s = exec (.setPixel idx ⟨r, g, b⟩) s) ∧
    (∀ t, exec (.setPixelChannels idx r g b) s = .next t →
      t.blkFault = 0#32 ∨ t.blkFault = 0x02#32 ∨ t.blkFault = 0x08#32)

/-- R104: FILL sets every pixel and nothing else; with one pixel it is SET_PIXEL 0; a non-zero IDX field is illegal. -/
def Obligations.FillSetsEveryPixel : Prop :=
  (∀ color : Color, ∃ w, encode (.fill color) = .command w ∧
    w &&& 0xFFFFFFFFFF000000#64 = 0x0400000000000000#64 ∧ colorOf w = color) ∧
  (∀ (g : Bool) (w : CmdWord), w.extractLsb' 56 8 = 0x04#8 → idxOf w ≠ 0#16 → ∃ r, decodeCommand g w = .error r) ∧
  (∀ color, CommonFaults (.fill color)) ∧
  ∀ (s : State) (color : Color),
    (s.Ready → exec (.fill color) s = .next
      { s with fs := List.replicate s.cfg.n color, cmdIn := none, resp := some 0x01000000#32 }) ∧
    (s.Ready → s.cfg.n = 1 → s.fs.length = 1 → exec (.fill color) s = exec (.setPixel 0#16 color) s) ∧
    (∀ t, exec (.fill color) s = .next t → t.blkFault = 0#32 ∨ t.blkFault = 0x02#32 ∨ t.blkFault = 0x08#32)

/-- R105 and R106: with a getter, GET_PIXEL answers the pixel's Color and changes nothing but RESP; out of range it records
INDEX_RANGE; without a getter it is illegal. -/
def Obligations.GetPixelReadsOrFaults : Prop :=
  (∀ idx : BitVec 16, ∃ w, encode (.getPixel idx) = .command w ∧
    w &&& 0xFFFF0000FFFFFFFF#64 = 0x0600000000000000#64 ∧ idxOf w = idx) ∧
  (∀ w : CmdWord, w.extractLsb' 56 8 = 0x06#8 → ∃ r, decodeCommand false w = .error r) ∧
  (∀ idx, CommonFaults (.getPixel idx)) ∧
  ∀ (s : State) (idx : BitVec 16),
    (s.Ready → s.memWf = true → s.cfg.hasGetter = true → idx.toNat < s.cfg.n →
      ∃ color, s.fs[idx.toNat]? = some color ∧ exec (.getPixel idx) s = .next
        { s with cmdIn := none, resp := some (0x02#8 ++ color.r ++ color.g ++ color.b) }) ∧
    (s.Ready → s.cfg.hasGetter = true → s.cfg.n ≤ idx.toNat → exec (.getPixel idx) s = .next
      { s with blkFault := 0x10#32, faultCmd := commandWord (.getPixel idx), cmdIn := none }) ∧
    (s.Live → s.cfg.hasGetter = false → exec (.getPixel idx) s = .next
      { s with blkFault := 0x01#32, faultCmd := commandWord (.getPixel idx), cmdIn := none })

/-- R100: a Frame Store command executes only in IDLE after INIT; then it changes nothing but FS, CMD_IN and RESP, a getter
not even FS; no flag, no element of BUF, no register of the engine, the timer or the pin. What it leaves in FS and RESP depends
on nothing but the command, FS and the configuration. -/
def Obligations.FrameStoreCommandsTouchOnlyTheFrameStore : Prop :=
  ∀ (s t : State) (i : Instr),
    (∃ idx color, i = .setPixel idx color) ∨ (∃ idx r g b, i = .setPixelChannels idx r g b) ∨
      (∃ color, i = .fill color) ∨ (∃ idx, i = .getPixel idx) →
    exec i s = .next t → t.Live →
    s.Ready ∧ t = { s with fs := t.fs, cmdIn := none, resp := t.resp } ∧ (s.memWf = true → t.memWf = true) ∧
    (∀ j, memRead t j = memRead s j) ∧ ((∃ idx, i = .getPixel idx) → t.fs = s.fs) ∧
    ∀ s' t' : State, exec i s' = .next t' → t'.Live → s'.cfg = s.cfg → s'.fs = s.fs → t'.fs = t.fs ∧ t'.resp = t.resp

/-- 40_frame_store.md section on the source's §8 properties (marked [derived] there): set then get answers the color set, fill
then get the color filled, an index out of range leaves every pixel, and a set leaves every other pixel. -/
def Obligations.FrameStoreReadsBackWhatWasWritten : Prop :=
  ∀ (s : State) (idx : BitVec 16) (c : Color), s.Ready → s.memWf = true →
    (s.cfg.hasGetter = true → idx.toNat < s.cfg.n → ∃ t u, exec (.setPixel idx c) s = .next t ∧
      exec (.getPixel idx) t = .next u ∧ u.resp = some (0x02#8 ++ c.r ++ c.g ++ c.b)) ∧
    (s.cfg.hasGetter = true → idx.toNat < s.cfg.n → ∃ t u, exec (.fill c) s = .next t ∧
      exec (.getPixel idx) t = .next u ∧ u.resp = some (0x02#8 ++ c.r ++ c.g ++ c.b)) ∧
    (s.cfg.n ≤ idx.toNat → ∃ t, exec (.setPixel idx c) s = .next t ∧ ∀ j, fsRead t j = fsRead s j) ∧
    (∃ t, exec (.setPixel idx c) s = .next t ∧ ∀ j, j ≠ idx.toNat → fsRead t j = fsRead s j)

/-! ## The pulse encoder -/

/-- R120: the packed word is green, red, blue from the most significant byte down, and no field overlaps another. -/
def Obligations.PackIsGreenRedBlue : Prop :=
  ∀ c : Color, pack24 c = (c.g.setWidth 24 <<< 16) ||| (c.r.setWidth 24 <<< 8) ||| c.b.setWidth 24 ∧
    (pack24 c).extractLsb' 16 8 = c.g ∧ (pack24 c).extractLsb' 8 8 = c.r ∧ (pack24 c).extractLsb' 0 8 = c.b ∧
    (pack24 c).toNat = c.g.toNat * 65536 + c.r.toNat * 256 + c.b.toNat

/-- R121, R122 and R123: entry by entry, the whole of `enc`: entry `24p + k` is the pulse of bit `23 - k` of pixel `p`'s word,
and the `R` entries after the data are 0. -/
def Obligations.EncodedEntryIsThePulseOfItsBit : Prop :=
  ∀ (c : Config) (fs : List Color), fs.length = c.n →
    (enc c fs).length = 24 * c.n + c.r ∧
    (∀ j color, j < 24 * c.n → fs[j / 24]? = some color →
      (enc c fs)[j]? = some (if (pack24 color).getLsbD (23 - j % 24) then BitVec.ofNat 16 c.pwOne
        else BitVec.ofNat 16 c.pwZero)) ∧
    (∀ j, j < c.r → (enc c fs)[24 * c.n + j]? = some 0#16)

/-- 41_pulse_encoder.md, the shape of the output (marked [derived] there): LEN entries, the last R of them 0, each data entry
one of the two pulses and never 0, and as many long pulses as there are 1 bits. -/
def Obligations.EncodedFrameHasItsShape : Prop :=
  ∀ (c : Config) (fs : List Color), c.Admissible → fs.length = c.n →
    (enc c fs).length = c.len ∧ (enc c fs).drop (24 * c.n) = List.replicate c.r 0#16 ∧
    (∀ e ∈ (enc c fs).take (24 * c.n), (e = pulseOne c ∨ e = pulseZero c) ∧ e ≠ 0#16) ∧
    (enc c fs).count (pulseOne c) =
      (fs.map fun color => (List.range 24).countP fun k => (pack24 color).getLsbD k).sum

/-- 41_pulse_encoder.md, `dec(enc(FS)) = FS` (marked [derived] there): the buffer determines the Frame Store, so that no two
Frame Stores have one encoding. -/
def Obligations.DecodingAnEncodedFrameGivesItBack : Prop :=
  (∀ (c : Config) (fs : List Color), c.Admissible → fs.length = c.n → dec c (enc c fs) = fs) ∧
  (∀ (c : Config) (fs fs' : List Color), c.Admissible → fs.length = c.n → fs'.length = c.n →
    enc c fs = enc c fs' → fs = fs')

/-! ## The transmitter -/

/-- R142: TRANSMIT's word, its one effect, the response it does not place, and its faults. -/
def Obligations.TransmitStartsATransmission : Prop :=
  encode .transmit = .command 0x0500000000000000#64 ∧
  ∀ s : State,
    (s.Ready → exec .transmit s = .next
      { s with polls := if s.cfg.waitBound.isSome then 0 else s.polls, phase := .encode, cmdIn := none }) ∧
    (s.Live → s.phase ≠ .idle → exec .transmit s = .next
      { s with blkFault := 0x08#32, faultCmd := 0x0500000000000000#64, cmdIn := none }) ∧
    (s.Fresh → exec .transmit s = .next
      { s with blkFault := 0x02#32, faultCmd := 0x0500000000000000#64, cmdIn := none }) ∧
    (∀ (g : Bool) (w : CmdWord), w.extractLsb' 56 8 = 0x05#8 → w ≠ 0x0500000000000000#64 →
      ∃ r, decodeCommand g w = .error r)

/-- R143: ENCODE rewrites every element of the buffer with the encoding of the Frame Store, in one step. -/
def Obligations.EncodeFillsTheBuffer : Prop :=
  encode .encode = .phase 0x1#4 ∧
  ∀ s : State, s.Live → s.phase = .encode →
    exec .encode s = .next { s with buf := enc s.cfg s.fs, phase := .engDisable } ∧
    (s.memWf = true → ∀ t, exec .encode s = .next t →
      ∀ j, j < s.cfg.len → memRead t j = (enc s.cfg s.fs)[j]? ∧ (memRead t j).isSome = true)

/-- R144, R145, R146 and R147: the four steps that arm the engine and then start the timer, each with its one write. That
ENG_LOAD finds the engine disabled is marked [derived: from rule R141] in R145, and is read off the invariant here. -/
def Obligations.ArmingStepsWriteOneFieldEach : Prop :=
  [Instr.engDisable, .engLoad, .engEnable, .tmrEnable].map encode = [.phase 0x2#4, .phase 0x3#4, .phase 0x4#4, .phase 0x5#4] ∧
  ∀ s : State, s.Live →
    (s.phase = .engDisable → exec .engDisable s = .next
      { s with engCfg := { s.engCfg with en := false }, phase := .engLoad }) ∧
    (s.phase = .engLoad → exec .engLoad s = .next { s with engCnt := s.cfg.n * 24 + s.cfg.r, phase := .engEnable }) ∧
    (s.Inv → s.phase = .engLoad → s.engCfg.en = false) ∧
    (s.phase = .engEnable → exec .engEnable s = .next
      { s with engCfg := { s.engCfg with en := true }, phase := .tmrEnable }) ∧
    (s.phase = .tmrEnable → exec .tmrEnable s = .next
      { s with tmrCtrl := { s.tmrCtrl with en := true }, phase := .wait })

/-- R148: WAIT goes on when TC is 1; otherwise it holds without a bound, and counts the poll with one, going to ABORT at the
bound. Nothing else changes. That the hold, where R148 gives the controller no enabled step, is a next state is the model's
choice (log entry 5). -/
def Obligations.WaitPollsTheCompletionFlag : Prop :=
  encode .wait = .phase 0x6#4 ∧
  ∀ s : State, s.Live → s.phase = .wait →
    (s.tc = true → exec .wait s = .next { s with phase := .clearTc }) ∧
    (s.tc = false → s.cfg.waitBound = none → exec .wait s = .next s) ∧
    (∀ b, s.tc = false → s.cfg.waitBound = some b → exec .wait s = .next
      { s with polls := s.polls + 1, phase := if s.polls + 1 = b then .abort else .wait })

/-- R149: CLEAR_TC clears the completion flag. -/
def Obligations.ClearTcClearsTheFlag : Prop :=
  encode .clearTc = .phase 0x7#4 ∧
  ∀ s : State, s.Live → s.phase = .clearTc → exec .clearTc s = .next { s with tc := false, phase := .tmrDisable }

/-- R150: TMR_DISABLE stops the timer, reports DONE/OK and returns to IDLE; the engine's EN and CNT stay. -/
def Obligations.TmrDisableEndsTheTransmission : Prop :=
  encode .tmrDisable = .phase 0x8#4 ∧
  ∀ s : State, s.Live → s.phase = .tmrDisable → exec .tmrDisable s = .next
    { s with tmrCtrl := { s.tmrCtrl with en := false }, status := .ok, phase := .idle, resp := some 0x03000000#32 }

/-- R151: ABORT stops the timer and the engine, clears CNT, TC and TMR_CMP, reports DONE/TIMED_OUT and returns to IDLE. -/
def Obligations.AbortForcesEverythingOff : Prop :=
  encode .abort = .phase 0x9#4 ∧
  ∀ s : State, s.Live → s.phase = .abort → exec .abort s = .next
    { s with
      tmrCtrl := { s.tmrCtrl with en := false }, engCfg := { s.engCfg with en := false }, engCnt := 0, tc := false,
      tmrCmp := 0#16, status := .timedOut, phase := .idle, resp := some 0x03000001#32 }

/-- R141: these are all the transitions of PHASE, each by its own instruction and under its own condition. -/
def Obligations.PhaseGraphIsAllTheTransitions : Prop :=
  (∀ (i : Instr) (s t : State), exec i s = .next t → t.phase ≠ s.phase →
    phaseEdge s.phase t.phase = true ∧
    (s.phase = .idle → i = .transmit) ∧ (s.phase ≠ .idle → i.phase? = some s.phase) ∧
    (s.phase = .wait → t.phase = .clearTc → s.tc = true) ∧
    (s.phase = .wait → t.phase = .abort → s.tc = false ∧ s.cfg.waitBound = some (s.polls + 1))) ∧
  (∀ s t : State, step s = .next t → t.phase = s.phase ∨ phaseEdge s.phase t.phase = true)

/-- R154: only TMR_DISABLE and ABORT return PHASE to IDLE, and a command presented meanwhile records BUSY, with no other
effect. -/
def Obligations.TransmissionCannotBeCancelled : Prop :=
  (∀ s t : State, step s = .next t → s.phase ≠ .idle → t.phase = .idle →
    s.cmdIn = none ∧ nextAgent s = .controller ∧
    (s.phase = .tmrDisable ∧ exec .tmrDisable (advance s) = .next t ∨
      s.phase = .abort ∧ exec .abort (advance s) = .next t)) ∧
  (∀ (s : State) (w : CmdWord) (i : Instr), s.Live → s.phase ≠ .idle → decodeCommand s.cfg.hasGetter w = .ok i →
    presentWord w s = .next { s with blkFault := 0x08#32, faultCmd := w, cmdIn := none })

/-- 20_memory.md section 4 (R72): while a transmission is in flight the Frame Store does not change, any command presented faults
with BUSY, and every step that is not the recording of a fault is the controller's, the timer's or the engine's, or an issuer's
move that leaves everything but the issuers' own side as it was. The model's choices, in that last case, where R72 names three
agents alone: the host may take a response in flight (log entry 17), an issuer's move with nothing to do is a next state (log
entry 5), and filling CMD_IN is a move before the step that checks the word (log entry 4). -/
def Obligations.FrameStoreIsFrozenInFlight : Prop :=
  ∀ s t : State, step s = .next t → s.phase ≠ .idle →
    t.fs = s.fs ∧
    (∀ w i, decodeCommand s.cfg.hasGetter w = .ok i →
      presentWord w s = .next { s with blkFault := 0x08#32, faultCmd := w, cmdIn := none }) ∧
    (t.Live → s.cmdIn = none ∧
      (nextAgent s = .controller ∨ nextAgent s = .timer ∨ nextAgent s = .engine ∨
        t = { s with
          sched := t.sched, moves := t.moves, cmdIn := t.cmdIn, resp := t.resp, hostProg := t.hostProg,
          hostAwait := t.hostAwait, second := t.second }))

/-- 42_transmitter.md section 4, the effect of one completed transmission (marked [derived] there). From any state of the
invariant in IDLE with TRANSMIT presented, under every order of the agents' moves: when the phase is first back in IDLE with
STATUS OK, BUF and the new part of EMITTED are the encoding of the Frame Store, PERIODS has grown by `0^a`, all of the
encoding but its last entry, and `0^b`, where `a` is 0 exactly when a stale request transferred the first entry before any
period event; the registers are as the spec lists them, and the Frame Store is unchanged. -/
def Obligations.TransmissionDeliversTheFrame : Prop :=
  ∀ (s t : State) (n : Nat), s.Inv → s.Ready → s.cmdIn = some 0x0500000000000000#64 →
    (∀ k u, 0 < k → k < n → Sys2Proof.core.run k s = .next u → u.phase ≠ .idle) → 0 < n →
    Sys2Proof.core.run n s = .next t → t.phase = .idle → t.status = .ok →
    t.buf = enc s.cfg s.fs ∧ t.emitted = s.emitted ++ enc s.cfg s.fs ∧
    (∃ a b, a ≤ 1 ∧
      t.periods = s.periods ++ List.replicate a 0#16 ++ (enc s.cfg s.fs).take (s.cfg.len - 1) ++ List.replicate b 0#16 ∧
      (a = 0 ↔ ∃ k u, k ≤ n ∧ Sys2Proof.core.run k s = .next u ∧
        u.emitted = s.emitted ++ (enc s.cfg s.fs).take 1 ∧ u.periods = s.periods)) ∧
    t.tmrCtrl.en = false ∧ t.engCfg.en = true ∧ t.engCnt = 0 ∧ t.tc = false ∧ t.tmrCmp = 0#16 ∧
    t.resp = some 0x03000000#32 ∧ t.fs = s.fs

/-- 42_transmitter.md section 4, termination (marked [derived] there), under the lockstep order of 95_test_vectors.md P1: from
any state of the invariant in IDLE with TRANSMIT presented and no request pending, five moves of the controller, LEN moves of
the timer and the engine in turn and three moves of the controller end the transmission with DONE/OK, in every configuration,
with or without a bound on the wait. -/
def Obligations.LockstepTransmissionCompletes : Prop :=
  ∀ (s : State) (rest : List Agent), s.Inv → s.Ready → s.cmdIn = some 0x0500000000000000#64 → s.reqPending = false →
    s.sched = List.replicate 5 .controller ++ (List.replicate s.cfg.len [Agent.timer, Agent.engine]).flatten ++
      List.replicate 3 .controller ++ rest →
    ∃ t, Sys2Proof.core.run (1 + 5 + 2 * s.cfg.len + 3) s = .next t ∧
      t.phase = .idle ∧ t.status = .ok ∧ t.resp = some 0x03000000#32 ∧ t.fs = s.fs ∧ t.sched = rest ∧
      t.emitted = s.emitted ++ enc s.cfg s.fs ∧
      t.periods = s.periods ++ [0#16] ++ (enc s.cfg s.fs).take (s.cfg.len - 1) ∧ t.reqPending = false

/-- 42_transmitter.md section 4, termination with a bound (marked [derived] there): polls that find TC 0 up to the bound, and one
more move of the controller, end the transmission with DONE/TIMED_OUT and everything off. -/
def Obligations.BoundedWaitEndsInAbort : Prop :=
  ∀ (s : State) (b : Nat) (rest : List Agent), s.Inv → s.Live → s.cmdIn = none → s.phase = .wait → s.tc = false →
    s.cfg.waitBound = some b → s.sched = List.replicate (b - s.polls) .controller ++ .controller :: rest →
    ∃ t, Sys2Proof.core.run (b - s.polls + 1) s = .next t ∧
      t = { s with
        polls := b, status := .timedOut, phase := .idle, resp := some 0x03000001#32, engCnt := 0, tc := false,
        tmrCmp := 0#16, tmrCtrl := { s.tmrCtrl with en := false }, engCfg := { s.engCfg with en := false },
        sched := rest, moves := s.moves + (b - s.polls + 1) }

/-- 42_transmitter.md section 4, the stalled engine (marked [derived] there): without a bound, while the engine makes no move and
the blocked host is alone, the controller holds in WAIT for as long as one likes. The model's choices: a move that is not
enabled is a step that changes nothing else (log entry 5), and a host that waits, with RESP empty, does nothing (log entry 6). -/
def Obligations.StalledEngineHoldsInWait : Prop :=
  ∀ (s : State) (n : Nat), s.Live → s.phase = .wait → s.tc = false → s.cfg.waitBound = none → s.cmdIn = none →
    s.resp = none → s.hostAwait = true → s.second = [] → n ≤ s.sched.length → Agent.engine ∉ s.sched.take n →
    ∃ t, Sys2Proof.core.run n s = .next t ∧ t.phase = .wait ∧ t.engCnt = s.engCnt ∧ t.emitted = s.emitted ∧ ¬ t.Ended

/-! ## The timer and the engine -/

/-- R175 and R177: an enabled period event logs the compare value that governed the period and raises one request; with the
timer stopped or a request pending there is none. That the event is then a next state in which nothing changed is the
model's choice (log entry 5). -/
def Obligations.PeriodEventLogsAndRequests : Prop :=
  encode .timerPeriod = .event 0#1 ∧
  ∀ s : State, s.Live →
    (s.tmrCtrl.en = true → s.reqPending = false → exec .timerPeriod s = .next
      { s with periods := s.periods ++ [s.tmrCmp], reqPending := s.tmrCtrl.reqEn }) ∧
    (s.tmrCtrl.en = false ∨ s.reqPending = true → exec .timerPeriod s = .next s)

/-- R176: the engine's service transfers the element at LEN − CNT and counts down, sets TC on the last, and drops a request that
finds it disabled or done; without a request there is no service. That it is then a next state in which nothing changed is
the model's choice (log entry 5). -/
def Obligations.EngineServiceTransfersOrDrops : Prop :=
  encode .engineService = .event 1#1 ∧
  ∀ s : State, s.Live →
    (s.reqPending = true → s.engCfg.en = true → 0 < s.engCnt → s.engCnt ≤ s.cfg.len → s.memWf = true →
      ∃ v, s.buf[s.cfg.len - s.engCnt]? = some v ∧ exec .engineService s = .next
        { s with
          reqPending := false, tmrCmp := v, emitted := s.emitted ++ [v], engCnt := s.engCnt - 1,
          tc := s.tc || s.engCnt == 1 }) ∧
    (s.reqPending = true → s.engCfg.en = false ∨ s.engCnt = 0 → exec .engineService s = .next
      { s with reqPending := false }) ∧
    (s.reqPending = false → exec .engineService s = .next s)

/-- R40: EMITTED grows by the value each transfer writes into TMR_CMP and PERIODS by the value of TMR_CMP at each period event,
both from [], and no step does both or rewrites what is there. Every transfer appends: the engine's move does so when it
lowers CNT, and when it finds a request, EN = 1 and CNT above 0 (R176). Every period event appends: the timer's move does so
when EN = 1 and no request is pending (R175). -/
def Obligations.ObservationListsRecordTheLine : Prop :=
  (∀ c head, (State.resetOf c head).emitted = [] ∧ (State.resetOf c head).periods = []) ∧
  ∀ s t : State, step s = .next t →
    (t.emitted = s.emitted ∧ t.periods = s.periods ∨
    (nextAgent s = .engine ∧ t.emitted = s.emitted ++ [t.tmrCmp] ∧ t.periods = s.periods ∧
      memRead s (s.cfg.len - s.engCnt) = some t.tmrCmp ∧ t.engCnt + 1 = s.engCnt) ∨
    (nextAgent s = .timer ∧ t.emitted = s.emitted ∧ t.periods = s.periods ++ [s.tmrCmp] ∧ t.tmrCmp = s.tmrCmp ∧
      s.tmrCtrl.en = true ∧ s.reqPending = false)) ∧
    (s.cmdIn = none → nextAgent s = .engine →
      t.engCnt < s.engCnt ∨ s.reqPending = true ∧ s.engCfg.en = true ∧ 0 < s.engCnt →
      t.emitted = s.emitted ++ [t.tmrCmp]) ∧
    (s.cmdIn = none → nextAgent s = .timer → s.tmrCtrl.en = true → s.reqPending = false →
      t.periods = s.periods ++ [s.tmrCmp])

/-! ## Who writes what -/

/-- The writers' lists of 10_state.md and the flag table's (section 5), for every instruction and every field: a field that an
instruction changes has that instruction among its writers (PHASE: TRANSMIT and the step of the phase left, R22 and R141;
RESP: the instructions that respond, R41 and R88); the configuration has none ("Every rule reads the configuration and none
writes it", 00_scope.md section 4). -/
def Obligations.EveryFieldHasOnlyItsWriters : Prop :=
  ∀ (i : Instr) (s t : State), exec i s = .next t →
    t.cfg = s.cfg ∧
    (t.initDone ≠ s.initDone → i = .init) ∧
    (t.phase ≠ s.phase → i = .transmit ∨ i.phase? = some s.phase) ∧
    (t.status ≠ s.status → i = .tmrDisable ∨ i = .abort) ∧
    (t.polls ≠ s.polls → i = .transmit ∨ i = .wait) ∧
    (t.engCfg.en ≠ s.engCfg.en → i = .engDisable ∨ i = .engEnable ∨ i = .abort) ∧
    ({ t.engCfg with en := s.engCfg.en } ≠ s.engCfg → i = .init) ∧
    (t.engCnt ≠ s.engCnt → i = .engLoad ∨ i = .engineService ∨ i = .abort) ∧
    (t.engSrc ≠ s.engSrc ∨ t.engDst ≠ s.engDst → i = .init) ∧
    (t.tc ≠ s.tc → i = .engineService ∨ i = .clearTc ∨ i = .abort) ∧
    (t.tmrCtrl.en ≠ s.tmrCtrl.en → i = .tmrEnable ∨ i = .tmrDisable ∨ i = .abort) ∧
    ({ t.tmrCtrl with en := s.tmrCtrl.en } ≠ s.tmrCtrl → i = .init) ∧
    (t.tmrPeriod ≠ s.tmrPeriod ∨ t.pinMode ≠ s.pinMode → i = .init) ∧
    (t.tmrCmp ≠ s.tmrCmp → i = .init ∨ i = .engineService ∨ i = .abort) ∧
    (t.reqPending ≠ s.reqPending → i = .timerPeriod ∨ i = .engineService) ∧
    (t.fs ≠ s.fs → (∃ idx color, i = .setPixel idx color) ∨ (∃ idx r g b, i = .setPixelChannels idx r g b) ∨
      ∃ color, i = .fill color) ∧
    (t.buf ≠ s.buf → i = .encode) ∧
    (t.emitted ≠ s.emitted → i = .engineService) ∧ (t.periods ≠ s.periods → i = .timerPeriod) ∧
    (t.resp ≠ s.resp → i = .init ∨ (∃ idx color, i = .setPixel idx color) ∨
      (∃ idx r g b, i = .setPixelChannels idx r g b) ∨ (∃ color, i = .fill color) ∨ (∃ idx, i = .getPixel idx) ∨
      i = .tmrDisable ∨ i = .abort) ∧
    (t.blkFault ≠ s.blkFault ∨ t.faultCmd ≠ s.faultCmd ∨ t.cmdIn ≠ s.cmdIn → i.isCommand = true) ∧
    (t.hostProg = s.hostProg ∧ t.hostAwait = s.hostAwait ∧ t.second = s.second ∧ t.sched = s.sched ∧ t.moves = s.moves)

/-! ## The invariant, and what holds of every reachable state -/

/-- Every step keeps the invariant, from every state that meets it. -/
def Obligations.EveryStepKeepsTheInvariant : Prop :=
  ∀ s t : State, s.Inv → step s = .next t → t.Inv

/-- The invariant holds after reset in every admissible configuration, whatever BUF's unspecified entries hold, with every load
and every order of moves, and at State.reset. -/
def Obligations.ResetMeetsTheInvariant : Prop :=
  (∀ c head prog second sched, c.Admissible → (State.boot c head prog second sched).Inv) ∧ State.reset.Inv

/-- R26: in every reachable state the last R entries of BUF are 0. -/
def Obligations.ReachableResetGapIsZero : Prop :=
  ∀ s : State, Reachable s → ∀ j, 24 * s.cfg.n ≤ j → j < s.cfg.len → s.buf[j]? = some 0#16

/-- 10_state.md, the Idle invariant (marked [derived] there): in every reachable state in IDLE after INIT without a fault, the
timer is stopped, CNT, TC and TMR_CMP are 0, and a stale request's service changes nothing but REQ_PENDING. That the period
event of the stopped timer is a next state in which nothing changed is the model's choice (log entry 5). -/
def Obligations.ReachableIdleBlockIsQuiet : Prop :=
  ∀ s : State, Reachable s → s.Ready →
    s.tmrCtrl.en = false ∧ s.engCnt = 0 ∧ s.tc = false ∧ s.tmrCmp = 0#16 ∧
    exec .engineService s = .next { s with reqPending := false } ∧ exec .timerPeriod s = .next s

/-- R174: once INIT has run, in every reachable state the boundary contract holds. -/
def Obligations.BoundaryContractNeverChanges : Prop :=
  ∀ s : State, Reachable s → s.initDone = true →
    s.tmrPeriod = BitVec.ofNat 16 (s.cfg.sysclkHz / 800000) ∧ s.engCfg.size = 0b01#2 ∧ s.engCfg.dir = true ∧
    s.engCfg.circ = false ∧ s.engSrc = .buf ∧ s.engDst = .tmrCmp

/-- R37 and R38 (and 41_pulse_encoder.md's laws, marked [derived]): the poll counter never passes the bound, and without a bound
it stays 0 and STATUS is never TIMED_OUT and ABORT is never reached. -/
def Obligations.ReachablePollsStayWithinTheBound : Prop :=
  ∀ s : State, Reachable s →
    (∀ b, s.cfg.waitBound = some b → s.polls ≤ b) ∧
    (s.cfg.waitBound = none → s.polls = 0 ∧ s.status = .ok ∧ s.phase ≠ .abort)

/-- R62 (its second item is marked [derived]) and R201: a block of the invariant without a fault always has a next state: no step
forms an index outside a store, none is refused, and a stop comes only after a recorded fault. The model's choices: a move
that is not enabled is a next state (log entry 5), and an index outside a store would be a stop (log entry 9). -/
def Obligations.LiveBlockNeverStops : Prop :=
  (∀ s : State, s.Inv → s.Live → ∃ t, step s = .next t) ∧
  (∀ (s : State) (r : Refusal), step s ≠ .refused r)

/-! ## The output line -/

/-- R178: a period of value `v` is PERIOD ticks, high exactly for the first `min(v, PERIOD)`; 0 keeps it low throughout and every
pulse of an admissible configuration has a high and a low part; while the pin is configured and the timer is stopped the line
is low, and TMR_CMP is 0. The model's reading: the phase TMR_ENABLE is left out of the clause on TMR_CMP, because a stale
request may have transferred BUF[0] there (R146, log entry 19); before INIT the level is the free value of log entry 10. -/
def Obligations.LineFollowsThePeriods : Prop :=
  (∀ (c : Config) (v : Elem), (wave c v).length = c.period ∧
    ∀ k, k < c.period → (wave c v)[k]? = some (decide (k < min v.toNat c.period))) ∧
  (∀ c : Config, true ∉ wave c 0#16 ∧
    (c.Admissible → ∀ bit, (wave c (pulse c bit)).count true = (if bit then c.pwOne else c.pwZero) ∧
      (wave c (pulse c bit)).getLast? = some false)) ∧
  (∀ s : State, s.Inv → s.pinMode = true →
    (s.tmrCtrl.en = true → lineState s = .periods) ∧
    (s.tmrCtrl.en = false → lineState s = .low ∧ (∀ k, idleLevel s k = some false) ∧
      (s.phase ≠ .tmrEnable → s.tmrCmp = 0#16))) ∧
  (∀ (s : State) (k : Nat), s.pinMode = false → lineState s = .undriven ∧ idleLevel s k = some (Config.undrivenLevel k))

/-! ## The register views -/

/-- R45 with the field tables of R27, R30, R31, R35 and R39: the words a debugger reads hold the fields at their bits and 0 at
every reserved bit, each number of the map reads as its register, and a number reads exactly when a register has it (POLLS
only under a bound, R37). The views are the model's reading of R42's "as a debugger would" (log entries 12 and 13). -/
def Obligations.RegisterWordsPackTheirFields : Prop :=
  ∀ s : State,
    (let e := engCfgWord s.engCfg
     e.getLsbD 0 = s.engCfg.en ∧ e.getLsbD 1 = s.engCfg.tcie ∧ e.getLsbD 4 = s.engCfg.dir ∧ e.getLsbD 5 = s.engCfg.circ ∧
      e.getLsbD 6 = s.engCfg.pinc ∧ e.getLsbD 7 = s.engCfg.minc ∧ e.extractLsb' 8 2 = s.engCfg.size ∧
      e &&& 0xFFFFFC0C#32 = 0#32) ∧
    (let t := tmrCtrlWord s.tmrCtrl
     t.getLsbD 0 = s.tmrCtrl.en ∧ t.getLsbD 1 = s.tmrCtrl.reqEn ∧ t.getLsbD 2 = s.tmrCtrl.oe ∧ t &&& 0xFFFFFFF8#32 = 0#32) ∧
    (engFlagWord s).toNat = s.tc.toNat ∧ (pinCfgWord s).toNat = s.pinMode.toNat ∧
    (let b := blkStatusWord s
     b.getLsbD 0 = s.initDone ∧ b.extractLsb' 4 4 = phaseCode s.phase ∧ b.getLsbD 8 = (s.status == .timedOut) ∧
      b &&& 0xFFFFFE0E#32 = 0#32) ∧
    (s.Inv → s.blkFault &&& 0xFFFFFFE0#32 = 0#32 ∧ (BitVec.ofNat 16 s.engCnt).toNat = s.engCnt) ∧
    readNumber s 0x00 = some (.word32 (blkStatusWord s)) ∧ readNumber s 0x01 = some (.word32 s.blkFault) ∧
    (s.cfg.waitBound.isSome = true → readNumber s 0x02 = some (.word32 (BitVec.ofNat 32 s.polls))) ∧
    readNumber s 0x03 = some (.word64 s.faultCmd) ∧ readNumber s 0x10 = some (.word32 (engCfgWord s.engCfg)) ∧
    readNumber s 0x11 = some (.word16 (BitVec.ofNat 16 s.engCnt)) ∧ readNumber s 0x12 = some (.src s.engSrc) ∧
    readNumber s 0x13 = some (.dst s.engDst) ∧ readNumber s 0x14 = some (.word32 (engFlagWord s)) ∧
    readNumber s 0x20 = some (.word32 (tmrCtrlWord s.tmrCtrl)) ∧ readNumber s 0x21 = some (.word16 s.tmrPeriod) ∧
    readNumber s 0x22 = some (.word16 s.tmrCmp) ∧ readNumber s 0x30 = some (.word32 (pinCfgWord s)) ∧
    ∀ n : Nat, (readNumber s n).isSome = true ↔
      n ∈ [0x00, 0x01, 0x03, 0x10, 0x11, 0x12, 0x13, 0x14, 0x20, 0x21, 0x22, 0x30] ∨ n = 0x02 ∧ s.cfg.waitBound.isSome = true
end

