-- ==== Sys2Proof/Laws/Codec.lean ====
section
/-! SUPPORT. The fields of an encoded command word, and the row it spells. -/

namespace Sys2Proof

theorem cmdWord_getLsbD (op : Byte) (idx : BitVec 16) (c : Color) (k : Nat) :
    (cmdWord op idx c).getLsbD k =
      if k < 8 then c.b.getLsbD k
      else if k < 16 then c.g.getLsbD (k - 8)
      else if k < 24 then c.r.getLsbD (k - 16)
      else if k < 32 then false
      else if k < 48 then idx.getLsbD (k - 32)
      else if k < 56 then false
      else op.getLsbD (k - 56) := by
  simp only [cmdWord, BitVec.getLsbD_append]
  split_ifs <;> first | rfl | omega | simp_all [Nat.sub_sub]

@[simp] theorem opOf_cmdWord (op : Byte) (idx : BitVec 16) (c : Color) : opOf (cmdWord op idx c) = op := by
  apply BitVec.eq_of_getLsbD_eq
  intro k hk
  simp only [opOf, BitVec.getLsbD_extractLsb', cmdWord_getLsbD, hk, decide_true, Bool.true_and]
  split_ifs <;> first | omega | (congr 1; omega)

@[simp] theorem idxOf_cmdWord (op : Byte) (idx : BitVec 16) (c : Color) : idxOf (cmdWord op idx c) = idx := by
  apply BitVec.eq_of_getLsbD_eq
  intro k hk
  simp only [idxOf, BitVec.getLsbD_extractLsb', cmdWord_getLsbD, hk, decide_true, Bool.true_and]
  split_ifs <;> first | omega | (congr 1; omega)

@[simp] theorem colorOf_cmdWord (op : Byte) (idx : BitVec 16) (c : Color) : colorOf (cmdWord op idx c) = c := by
  cases c
  simp only [colorOf, Color.mk.injEq]
  refine ⟨?_, ?_, ?_⟩ <;>
  · apply BitVec.eq_of_getLsbD_eq
    intro k hk
    simp only [BitVec.getLsbD_extractLsb', cmdWord_getLsbD, hk, decide_true, Bool.true_and]
    split_ifs <;> first | omega | (congr 1; omega)

/-- The word with given fields has a row's match on the row's mask, one bit at a time. -/
theorem spells_iff (x : Cmd) (w : CmdWord) :
    x.spells w = true ↔ ∀ k, k < 64 → (x.mask.getLsbD k = true → w.getLsbD k = x.pat.getLsbD k) ∧
      (x.mask.getLsbD k = false → x.pat.getLsbD k = false) := by
  simp only [Cmd.spells, beq_iff_eq]
  constructor
  · intro h k _
    have := congrArg (fun v => v.getLsbD k) h
    simp only [BitVec.getLsbD_and] at this
    constructor <;> intro hm <;> simp_all
  · intro h
    apply BitVec.eq_of_getLsbD_eq
    intro k hk
    obtain ⟨h1, h2⟩ := h k hk
    rw [BitVec.getLsbD_and]
    cases hm : x.mask.getLsbD k
    · simp [h2 hm]
    · simp [h1 hm]

end Sys2Proof
end

