-- ==== Sys2Proof/Laws/Encoder.lean ====
section
/-! SUPPORT. Lengths and parts of an encoded frame, and that the stores keep their form. -/

namespace Sys2Proof.Machine

@[simp] theorem pixelPulses_length (c : Config) (color : Color) : (pixelPulses c color).length = 24 := by
  simp [pixelPulses]

theorem pixelPulses_getElem? (c : Config) (color : Color) {k : Nat} (h : k < 24) :
    (pixelPulses c color)[k]? = some (pulse c ((pack24 color).getLsbD (23 - k))) := by
  simp [pixelPulses, h]

theorem flatMap_pixelPulses_length (c : Config) (fs : List Color) :
    (fs.flatMap (pixelPulses c)).length = fs.length * 24 := by
  induction fs with
  | nil => rfl
  | cons x xs ih => simp only [List.flatMap_cons, List.length_append, pixelPulses_length, ih, List.length_cons]; omega

theorem enc_length {c : Config} {fs : List Color} (h : fs.length = c.n) : (enc c fs).length = c.len := by
  simp [enc, h, Config.len, Config.dataLen]

/-- The reset gap of an encoded frame. -/
theorem enc_drop {c : Config} {fs : List Color} (h : fs.length = c.n) :
    (enc c fs).drop c.dataLen = List.replicate c.r 0 := by
  rw [enc, List.drop_left']
  rw [flatMap_pixelPulses_length, h]; rfl

theorem memWf_iff {s : State} : s.memWf = true ↔ s.fs.length = s.cfg.n ∧ s.buf.length = s.cfg.len := by
  simp [State.memWf]

/-! Every operation over a store keeps the stores' form. -/

theorem fsWrite_memWf (j : Nat) (c : Color) {s : State} (h : s.memWf = true) : (fsWrite j c s).memWf = true := by
  simpa [memWf_iff, fsWrite] using memWf_iff.1 h

theorem fsFill_memWf (c : Color) {s : State} (h : s.memWf = true) : (fsFill c s).memWf = true := by
  simpa [memWf_iff, fsFill] using (memWf_iff.1 h).2

theorem memWriteAll_enc_memWf {s : State} (h : s.memWf = true) : (memWriteAll (enc s.cfg s.fs) s).memWf = true := by
  have h' := memWf_iff.1 h
  simpa [memWf_iff, memWriteAll, h'.1] using enc_length h'.1

/-- An element in range can be read. -/
theorem memRead_isSome {s : State} (h : s.memWf = true) {j : Nat} (hj : j < s.cfg.len) :
    ∃ v, memRead s j = some v := by
  have h' := (memWf_iff.1 h).2
  exact ⟨_, List.getElem?_eq_getElem (by omega)⟩

theorem fsRead_isSome {s : State} (h : s.memWf = true) {k : Nat} (hk : k < s.cfg.n) : ∃ c, fsRead s k = some c := by
  have h' := (memWf_iff.1 h).1
  exact ⟨_, List.getElem?_eq_getElem (by omega)⟩

theorem resetOf_memWf (c : Config) (head : Nat → Elem) : (State.resetOf c head).memWf = true := by
  simp [memWf_iff, State.resetOf, Config.len]

end Sys2Proof.Machine
end

