-- ==== Sys2Proof/Laws/State.lean ====
section
/-!
SUPPORT. For each named update of the state and each field: what the field is afterwards. All are true by definition;
later proofs use them and never unfold a record update.
-/

namespace Sys2Proof.Machine

section
variable (code : FaultCode) (s : State)

@[simp] theorem setFault_cfg : (setFault code s).cfg = s.cfg := rfl
@[simp] theorem setFault_initDone : (setFault code s).initDone = s.initDone := rfl
@[simp] theorem setFault_phase : (setFault code s).phase = s.phase := rfl
@[simp] theorem setFault_status : (setFault code s).status = s.status := rfl
@[simp] theorem setFault_blkFault : (setFault code s).blkFault = s.blkFault ||| faultMask code := rfl
@[simp] theorem setFault_polls : (setFault code s).polls = s.polls := rfl
@[simp] theorem setFault_faultCmd : (setFault code s).faultCmd = s.faultCmd := rfl
@[simp] theorem setFault_engCfg : (setFault code s).engCfg = s.engCfg := rfl
@[simp] theorem setFault_engCnt : (setFault code s).engCnt = s.engCnt := rfl
@[simp] theorem setFault_engSrc : (setFault code s).engSrc = s.engSrc := rfl
@[simp] theorem setFault_engDst : (setFault code s).engDst = s.engDst := rfl
@[simp] theorem setFault_tc : (setFault code s).tc = s.tc := rfl
@[simp] theorem setFault_tmrCtrl : (setFault code s).tmrCtrl = s.tmrCtrl := rfl
@[simp] theorem setFault_tmrPeriod : (setFault code s).tmrPeriod = s.tmrPeriod := rfl
@[simp] theorem setFault_tmrCmp : (setFault code s).tmrCmp = s.tmrCmp := rfl
@[simp] theorem setFault_pinMode : (setFault code s).pinMode = s.pinMode := rfl
@[simp] theorem setFault_reqPending : (setFault code s).reqPending = s.reqPending := rfl
@[simp] theorem setFault_fs : (setFault code s).fs = s.fs := rfl
@[simp] theorem setFault_buf : (setFault code s).buf = s.buf := rfl
@[simp] theorem setFault_cmdIn : (setFault code s).cmdIn = s.cmdIn := rfl
@[simp] theorem setFault_resp : (setFault code s).resp = s.resp := rfl
@[simp] theorem setFault_emitted : (setFault code s).emitted = s.emitted := rfl
@[simp] theorem setFault_periods : (setFault code s).periods = s.periods := rfl
@[simp] theorem setFault_hostProg : (setFault code s).hostProg = s.hostProg := rfl
@[simp] theorem setFault_hostAwait : (setFault code s).hostAwait = s.hostAwait := rfl
@[simp] theorem setFault_second : (setFault code s).second = s.second := rfl
@[simp] theorem setFault_sched : (setFault code s).sched = s.sched := rfl
@[simp] theorem setFault_moves : (setFault code s).moves = s.moves := rfl

end

section
variable (v : Bool) (s : State)

@[simp] theorem setTc_cfg : (setTc v s).cfg = s.cfg := rfl
@[simp] theorem setTc_initDone : (setTc v s).initDone = s.initDone := rfl
@[simp] theorem setTc_phase : (setTc v s).phase = s.phase := rfl
@[simp] theorem setTc_status : (setTc v s).status = s.status := rfl
@[simp] theorem setTc_blkFault : (setTc v s).blkFault = s.blkFault := rfl
@[simp] theorem setTc_polls : (setTc v s).polls = s.polls := rfl
@[simp] theorem setTc_faultCmd : (setTc v s).faultCmd = s.faultCmd := rfl
@[simp] theorem setTc_engCfg : (setTc v s).engCfg = s.engCfg := rfl
@[simp] theorem setTc_engCnt : (setTc v s).engCnt = s.engCnt := rfl
@[simp] theorem setTc_engSrc : (setTc v s).engSrc = s.engSrc := rfl
@[simp] theorem setTc_engDst : (setTc v s).engDst = s.engDst := rfl
@[simp] theorem setTc_tc : (setTc v s).tc = v := rfl
@[simp] theorem setTc_tmrCtrl : (setTc v s).tmrCtrl = s.tmrCtrl := rfl
@[simp] theorem setTc_tmrPeriod : (setTc v s).tmrPeriod = s.tmrPeriod := rfl
@[simp] theorem setTc_tmrCmp : (setTc v s).tmrCmp = s.tmrCmp := rfl
@[simp] theorem setTc_pinMode : (setTc v s).pinMode = s.pinMode := rfl
@[simp] theorem setTc_reqPending : (setTc v s).reqPending = s.reqPending := rfl
@[simp] theorem setTc_fs : (setTc v s).fs = s.fs := rfl
@[simp] theorem setTc_buf : (setTc v s).buf = s.buf := rfl
@[simp] theorem setTc_cmdIn : (setTc v s).cmdIn = s.cmdIn := rfl
@[simp] theorem setTc_resp : (setTc v s).resp = s.resp := rfl
@[simp] theorem setTc_emitted : (setTc v s).emitted = s.emitted := rfl
@[simp] theorem setTc_periods : (setTc v s).periods = s.periods := rfl
@[simp] theorem setTc_hostProg : (setTc v s).hostProg = s.hostProg := rfl
@[simp] theorem setTc_hostAwait : (setTc v s).hostAwait = s.hostAwait := rfl
@[simp] theorem setTc_second : (setTc v s).second = s.second := rfl
@[simp] theorem setTc_sched : (setTc v s).sched = s.sched := rfl
@[simp] theorem setTc_moves : (setTc v s).moves = s.moves := rfl

end

section
variable (v : Bool) (s : State)

@[simp] theorem setReqPending_cfg : (setReqPending v s).cfg = s.cfg := rfl
@[simp] theorem setReqPending_initDone : (setReqPending v s).initDone = s.initDone := rfl
@[simp] theorem setReqPending_phase : (setReqPending v s).phase = s.phase := rfl
@[simp] theorem setReqPending_status : (setReqPending v s).status = s.status := rfl
@[simp] theorem setReqPending_blkFault : (setReqPending v s).blkFault = s.blkFault := rfl
@[simp] theorem setReqPending_polls : (setReqPending v s).polls = s.polls := rfl
@[simp] theorem setReqPending_faultCmd : (setReqPending v s).faultCmd = s.faultCmd := rfl
@[simp] theorem setReqPending_engCfg : (setReqPending v s).engCfg = s.engCfg := rfl
@[simp] theorem setReqPending_engCnt : (setReqPending v s).engCnt = s.engCnt := rfl
@[simp] theorem setReqPending_engSrc : (setReqPending v s).engSrc = s.engSrc := rfl
@[simp] theorem setReqPending_engDst : (setReqPending v s).engDst = s.engDst := rfl
@[simp] theorem setReqPending_tc : (setReqPending v s).tc = s.tc := rfl
@[simp] theorem setReqPending_tmrCtrl : (setReqPending v s).tmrCtrl = s.tmrCtrl := rfl
@[simp] theorem setReqPending_tmrPeriod : (setReqPending v s).tmrPeriod = s.tmrPeriod := rfl
@[simp] theorem setReqPending_tmrCmp : (setReqPending v s).tmrCmp = s.tmrCmp := rfl
@[simp] theorem setReqPending_pinMode : (setReqPending v s).pinMode = s.pinMode := rfl
@[simp] theorem setReqPending_reqPending : (setReqPending v s).reqPending = v := rfl
@[simp] theorem setReqPending_fs : (setReqPending v s).fs = s.fs := rfl
@[simp] theorem setReqPending_buf : (setReqPending v s).buf = s.buf := rfl
@[simp] theorem setReqPending_cmdIn : (setReqPending v s).cmdIn = s.cmdIn := rfl
@[simp] theorem setReqPending_resp : (setReqPending v s).resp = s.resp := rfl
@[simp] theorem setReqPending_emitted : (setReqPending v s).emitted = s.emitted := rfl
@[simp] theorem setReqPending_periods : (setReqPending v s).periods = s.periods := rfl
@[simp] theorem setReqPending_hostProg : (setReqPending v s).hostProg = s.hostProg := rfl
@[simp] theorem setReqPending_hostAwait : (setReqPending v s).hostAwait = s.hostAwait := rfl
@[simp] theorem setReqPending_second : (setReqPending v s).second = s.second := rfl
@[simp] theorem setReqPending_sched : (setReqPending v s).sched = s.sched := rfl
@[simp] theorem setReqPending_moves : (setReqPending v s).moves = s.moves := rfl

end

section
variable (p : Phase) (s : State)

@[simp] theorem setPhase_cfg : (setPhase p s).cfg = s.cfg := rfl
@[simp] theorem setPhase_initDone : (setPhase p s).initDone = s.initDone := rfl
@[simp] theorem setPhase_phase : (setPhase p s).phase = p := rfl
@[simp] theorem setPhase_status : (setPhase p s).status = s.status := rfl
@[simp] theorem setPhase_blkFault : (setPhase p s).blkFault = s.blkFault := rfl
@[simp] theorem setPhase_polls : (setPhase p s).polls = s.polls := rfl
@[simp] theorem setPhase_faultCmd : (setPhase p s).faultCmd = s.faultCmd := rfl
@[simp] theorem setPhase_engCfg : (setPhase p s).engCfg = s.engCfg := rfl
@[simp] theorem setPhase_engCnt : (setPhase p s).engCnt = s.engCnt := rfl
@[simp] theorem setPhase_engSrc : (setPhase p s).engSrc = s.engSrc := rfl
@[simp] theorem setPhase_engDst : (setPhase p s).engDst = s.engDst := rfl
@[simp] theorem setPhase_tc : (setPhase p s).tc = s.tc := rfl
@[simp] theorem setPhase_tmrCtrl : (setPhase p s).tmrCtrl = s.tmrCtrl := rfl
@[simp] theorem setPhase_tmrPeriod : (setPhase p s).tmrPeriod = s.tmrPeriod := rfl
@[simp] theorem setPhase_tmrCmp : (setPhase p s).tmrCmp = s.tmrCmp := rfl
@[simp] theorem setPhase_pinMode : (setPhase p s).pinMode = s.pinMode := rfl
@[simp] theorem setPhase_reqPending : (setPhase p s).reqPending = s.reqPending := rfl
@[simp] theorem setPhase_fs : (setPhase p s).fs = s.fs := rfl
@[simp] theorem setPhase_buf : (setPhase p s).buf = s.buf := rfl
@[simp] theorem setPhase_cmdIn : (setPhase p s).cmdIn = s.cmdIn := rfl
@[simp] theorem setPhase_resp : (setPhase p s).resp = s.resp := rfl
@[simp] theorem setPhase_emitted : (setPhase p s).emitted = s.emitted := rfl
@[simp] theorem setPhase_periods : (setPhase p s).periods = s.periods := rfl
@[simp] theorem setPhase_hostProg : (setPhase p s).hostProg = s.hostProg := rfl
@[simp] theorem setPhase_hostAwait : (setPhase p s).hostAwait = s.hostAwait := rfl
@[simp] theorem setPhase_second : (setPhase p s).second = s.second := rfl
@[simp] theorem setPhase_sched : (setPhase p s).sched = s.sched := rfl
@[simp] theorem setPhase_moves : (setPhase p s).moves = s.moves := rfl

end

section
variable (kind : RespKind) (payload : BitVec 24) (s : State)

@[simp] theorem respond_cfg : (respond kind payload s).cfg = s.cfg := rfl
@[simp] theorem respond_initDone : (respond kind payload s).initDone = s.initDone := rfl
@[simp] theorem respond_phase : (respond kind payload s).phase = s.phase := rfl
@[simp] theorem respond_status : (respond kind payload s).status = s.status := rfl
@[simp] theorem respond_blkFault : (respond kind payload s).blkFault = s.blkFault := rfl
@[simp] theorem respond_polls : (respond kind payload s).polls = s.polls := rfl
@[simp] theorem respond_faultCmd : (respond kind payload s).faultCmd = s.faultCmd := rfl
@[simp] theorem respond_engCfg : (respond kind payload s).engCfg = s.engCfg := rfl
@[simp] theorem respond_engCnt : (respond kind payload s).engCnt = s.engCnt := rfl
@[simp] theorem respond_engSrc : (respond kind payload s).engSrc = s.engSrc := rfl
@[simp] theorem respond_engDst : (respond kind payload s).engDst = s.engDst := rfl
@[simp] theorem respond_tc : (respond kind payload s).tc = s.tc := rfl
@[simp] theorem respond_tmrCtrl : (respond kind payload s).tmrCtrl = s.tmrCtrl := rfl
@[simp] theorem respond_tmrPeriod : (respond kind payload s).tmrPeriod = s.tmrPeriod := rfl
@[simp] theorem respond_tmrCmp : (respond kind payload s).tmrCmp = s.tmrCmp := rfl
@[simp] theorem respond_pinMode : (respond kind payload s).pinMode = s.pinMode := rfl
@[simp] theorem respond_reqPending : (respond kind payload s).reqPending = s.reqPending := rfl
@[simp] theorem respond_fs : (respond kind payload s).fs = s.fs := rfl
@[simp] theorem respond_buf : (respond kind payload s).buf = s.buf := rfl
@[simp] theorem respond_cmdIn : (respond kind payload s).cmdIn = s.cmdIn := rfl
@[simp] theorem respond_resp : (respond kind payload s).resp = some (respWord kind payload) := rfl
@[simp] theorem respond_emitted : (respond kind payload s).emitted = s.emitted := rfl
@[simp] theorem respond_periods : (respond kind payload s).periods = s.periods := rfl
@[simp] theorem respond_hostProg : (respond kind payload s).hostProg = s.hostProg := rfl
@[simp] theorem respond_hostAwait : (respond kind payload s).hostAwait = s.hostAwait := rfl
@[simp] theorem respond_second : (respond kind payload s).second = s.second := rfl
@[simp] theorem respond_sched : (respond kind payload s).sched = s.sched := rfl
@[simp] theorem respond_moves : (respond kind payload s).moves = s.moves := rfl

end

section
variable (s : State)

@[simp] theorem consume_cfg : (consume s).cfg = s.cfg := rfl
@[simp] theorem consume_initDone : (consume s).initDone = s.initDone := rfl
@[simp] theorem consume_phase : (consume s).phase = s.phase := rfl
@[simp] theorem consume_status : (consume s).status = s.status := rfl
@[simp] theorem consume_blkFault : (consume s).blkFault = s.blkFault := rfl
@[simp] theorem consume_polls : (consume s).polls = s.polls := rfl
@[simp] theorem consume_faultCmd : (consume s).faultCmd = s.faultCmd := rfl
@[simp] theorem consume_engCfg : (consume s).engCfg = s.engCfg := rfl
@[simp] theorem consume_engCnt : (consume s).engCnt = s.engCnt := rfl
@[simp] theorem consume_engSrc : (consume s).engSrc = s.engSrc := rfl
@[simp] theorem consume_engDst : (consume s).engDst = s.engDst := rfl
@[simp] theorem consume_tc : (consume s).tc = s.tc := rfl
@[simp] theorem consume_tmrCtrl : (consume s).tmrCtrl = s.tmrCtrl := rfl
@[simp] theorem consume_tmrPeriod : (consume s).tmrPeriod = s.tmrPeriod := rfl
@[simp] theorem consume_tmrCmp : (consume s).tmrCmp = s.tmrCmp := rfl
@[simp] theorem consume_pinMode : (consume s).pinMode = s.pinMode := rfl
@[simp] theorem consume_reqPending : (consume s).reqPending = s.reqPending := rfl
@[simp] theorem consume_fs : (consume s).fs = s.fs := rfl
@[simp] theorem consume_buf : (consume s).buf = s.buf := rfl
@[simp] theorem consume_cmdIn : (consume s).cmdIn = none := rfl
@[simp] theorem consume_resp : (consume s).resp = s.resp := rfl
@[simp] theorem consume_emitted : (consume s).emitted = s.emitted := rfl
@[simp] theorem consume_periods : (consume s).periods = s.periods := rfl
@[simp] theorem consume_hostProg : (consume s).hostProg = s.hostProg := rfl
@[simp] theorem consume_hostAwait : (consume s).hostAwait = s.hostAwait := rfl
@[simp] theorem consume_second : (consume s).second = s.second := rfl
@[simp] theorem consume_sched : (consume s).sched = s.sched := rfl
@[simp] theorem consume_moves : (consume s).moves = s.moves := rfl

end

section
variable (code : FaultCode) (w : CmdWord) (s : State)

@[simp] theorem raiseFault_cfg : (raiseFault code w s).cfg = s.cfg := rfl
@[simp] theorem raiseFault_initDone : (raiseFault code w s).initDone = s.initDone := rfl
@[simp] theorem raiseFault_phase : (raiseFault code w s).phase = s.phase := rfl
@[simp] theorem raiseFault_status : (raiseFault code w s).status = s.status := rfl
@[simp] theorem raiseFault_blkFault : (raiseFault code w s).blkFault = s.blkFault ||| faultMask code := rfl
@[simp] theorem raiseFault_polls : (raiseFault code w s).polls = s.polls := rfl
@[simp] theorem raiseFault_faultCmd : (raiseFault code w s).faultCmd = w := rfl
@[simp] theorem raiseFault_engCfg : (raiseFault code w s).engCfg = s.engCfg := rfl
@[simp] theorem raiseFault_engCnt : (raiseFault code w s).engCnt = s.engCnt := rfl
@[simp] theorem raiseFault_engSrc : (raiseFault code w s).engSrc = s.engSrc := rfl
@[simp] theorem raiseFault_engDst : (raiseFault code w s).engDst = s.engDst := rfl
@[simp] theorem raiseFault_tc : (raiseFault code w s).tc = s.tc := rfl
@[simp] theorem raiseFault_tmrCtrl : (raiseFault code w s).tmrCtrl = s.tmrCtrl := rfl
@[simp] theorem raiseFault_tmrPeriod : (raiseFault code w s).tmrPeriod = s.tmrPeriod := rfl
@[simp] theorem raiseFault_tmrCmp : (raiseFault code w s).tmrCmp = s.tmrCmp := rfl
@[simp] theorem raiseFault_pinMode : (raiseFault code w s).pinMode = s.pinMode := rfl
@[simp] theorem raiseFault_reqPending : (raiseFault code w s).reqPending = s.reqPending := rfl
@[simp] theorem raiseFault_fs : (raiseFault code w s).fs = s.fs := rfl
@[simp] theorem raiseFault_buf : (raiseFault code w s).buf = s.buf := rfl
@[simp] theorem raiseFault_cmdIn : (raiseFault code w s).cmdIn = none := rfl
@[simp] theorem raiseFault_resp : (raiseFault code w s).resp = s.resp := rfl
@[simp] theorem raiseFault_emitted : (raiseFault code w s).emitted = s.emitted := rfl
@[simp] theorem raiseFault_periods : (raiseFault code w s).periods = s.periods := rfl
@[simp] theorem raiseFault_hostProg : (raiseFault code w s).hostProg = s.hostProg := rfl
@[simp] theorem raiseFault_hostAwait : (raiseFault code w s).hostAwait = s.hostAwait := rfl
@[simp] theorem raiseFault_second : (raiseFault code w s).second = s.second := rfl
@[simp] theorem raiseFault_sched : (raiseFault code w s).sched = s.sched := rfl
@[simp] theorem raiseFault_moves : (raiseFault code w s).moves = s.moves := rfl

end

section
variable (v : Elem) (s : State)

@[simp] theorem logWrite_cfg : (logWrite v s).cfg = s.cfg := rfl
@[simp] theorem logWrite_initDone : (logWrite v s).initDone = s.initDone := rfl
@[simp] theorem logWrite_phase : (logWrite v s).phase = s.phase := rfl
@[simp] theorem logWrite_status : (logWrite v s).status = s.status := rfl
@[simp] theorem logWrite_blkFault : (logWrite v s).blkFault = s.blkFault := rfl
@[simp] theorem logWrite_polls : (logWrite v s).polls = s.polls := rfl
@[simp] theorem logWrite_faultCmd : (logWrite v s).faultCmd = s.faultCmd := rfl
@[simp] theorem logWrite_engCfg : (logWrite v s).engCfg = s.engCfg := rfl
@[simp] theorem logWrite_engCnt : (logWrite v s).engCnt = s.engCnt := rfl
@[simp] theorem logWrite_engSrc : (logWrite v s).engSrc = s.engSrc := rfl
@[simp] theorem logWrite_engDst : (logWrite v s).engDst = s.engDst := rfl
@[simp] theorem logWrite_tc : (logWrite v s).tc = s.tc := rfl
@[simp] theorem logWrite_tmrCtrl : (logWrite v s).tmrCtrl = s.tmrCtrl := rfl
@[simp] theorem logWrite_tmrPeriod : (logWrite v s).tmrPeriod = s.tmrPeriod := rfl
@[simp] theorem logWrite_tmrCmp : (logWrite v s).tmrCmp = s.tmrCmp := rfl
@[simp] theorem logWrite_pinMode : (logWrite v s).pinMode = s.pinMode := rfl
@[simp] theorem logWrite_reqPending : (logWrite v s).reqPending = s.reqPending := rfl
@[simp] theorem logWrite_fs : (logWrite v s).fs = s.fs := rfl
@[simp] theorem logWrite_buf : (logWrite v s).buf = s.buf := rfl
@[simp] theorem logWrite_cmdIn : (logWrite v s).cmdIn = s.cmdIn := rfl
@[simp] theorem logWrite_resp : (logWrite v s).resp = s.resp := rfl
@[simp] theorem logWrite_emitted : (logWrite v s).emitted = s.emitted ++ [v] := rfl
@[simp] theorem logWrite_periods : (logWrite v s).periods = s.periods := rfl
@[simp] theorem logWrite_hostProg : (logWrite v s).hostProg = s.hostProg := rfl
@[simp] theorem logWrite_hostAwait : (logWrite v s).hostAwait = s.hostAwait := rfl
@[simp] theorem logWrite_second : (logWrite v s).second = s.second := rfl
@[simp] theorem logWrite_sched : (logWrite v s).sched = s.sched := rfl
@[simp] theorem logWrite_moves : (logWrite v s).moves = s.moves := rfl

end

section
variable (v : Elem) (s : State)

@[simp] theorem logPeriod_cfg : (logPeriod v s).cfg = s.cfg := rfl
@[simp] theorem logPeriod_initDone : (logPeriod v s).initDone = s.initDone := rfl
@[simp] theorem logPeriod_phase : (logPeriod v s).phase = s.phase := rfl
@[simp] theorem logPeriod_status : (logPeriod v s).status = s.status := rfl
@[simp] theorem logPeriod_blkFault : (logPeriod v s).blkFault = s.blkFault := rfl
@[simp] theorem logPeriod_polls : (logPeriod v s).polls = s.polls := rfl
@[simp] theorem logPeriod_faultCmd : (logPeriod v s).faultCmd = s.faultCmd := rfl
@[simp] theorem logPeriod_engCfg : (logPeriod v s).engCfg = s.engCfg := rfl
@[simp] theorem logPeriod_engCnt : (logPeriod v s).engCnt = s.engCnt := rfl
@[simp] theorem logPeriod_engSrc : (logPeriod v s).engSrc = s.engSrc := rfl
@[simp] theorem logPeriod_engDst : (logPeriod v s).engDst = s.engDst := rfl
@[simp] theorem logPeriod_tc : (logPeriod v s).tc = s.tc := rfl
@[simp] theorem logPeriod_tmrCtrl : (logPeriod v s).tmrCtrl = s.tmrCtrl := rfl
@[simp] theorem logPeriod_tmrPeriod : (logPeriod v s).tmrPeriod = s.tmrPeriod := rfl
@[simp] theorem logPeriod_tmrCmp : (logPeriod v s).tmrCmp = s.tmrCmp := rfl
@[simp] theorem logPeriod_pinMode : (logPeriod v s).pinMode = s.pinMode := rfl
@[simp] theorem logPeriod_reqPending : (logPeriod v s).reqPending = s.reqPending := rfl
@[simp] theorem logPeriod_fs : (logPeriod v s).fs = s.fs := rfl
@[simp] theorem logPeriod_buf : (logPeriod v s).buf = s.buf := rfl
@[simp] theorem logPeriod_cmdIn : (logPeriod v s).cmdIn = s.cmdIn := rfl
@[simp] theorem logPeriod_resp : (logPeriod v s).resp = s.resp := rfl
@[simp] theorem logPeriod_emitted : (logPeriod v s).emitted = s.emitted := rfl
@[simp] theorem logPeriod_periods : (logPeriod v s).periods = s.periods ++ [v] := rfl
@[simp] theorem logPeriod_hostProg : (logPeriod v s).hostProg = s.hostProg := rfl
@[simp] theorem logPeriod_hostAwait : (logPeriod v s).hostAwait = s.hostAwait := rfl
@[simp] theorem logPeriod_second : (logPeriod v s).second = s.second := rfl
@[simp] theorem logPeriod_sched : (logPeriod v s).sched = s.sched := rfl
@[simp] theorem logPeriod_moves : (logPeriod v s).moves = s.moves := rfl

end

section
variable (j : Nat) (c : Color) (s : State)

@[simp] theorem fsWrite_cfg : (fsWrite j c s).cfg = s.cfg := rfl
@[simp] theorem fsWrite_initDone : (fsWrite j c s).initDone = s.initDone := rfl
@[simp] theorem fsWrite_phase : (fsWrite j c s).phase = s.phase := rfl
@[simp] theorem fsWrite_status : (fsWrite j c s).status = s.status := rfl
@[simp] theorem fsWrite_blkFault : (fsWrite j c s).blkFault = s.blkFault := rfl
@[simp] theorem fsWrite_polls : (fsWrite j c s).polls = s.polls := rfl
@[simp] theorem fsWrite_faultCmd : (fsWrite j c s).faultCmd = s.faultCmd := rfl
@[simp] theorem fsWrite_engCfg : (fsWrite j c s).engCfg = s.engCfg := rfl
@[simp] theorem fsWrite_engCnt : (fsWrite j c s).engCnt = s.engCnt := rfl
@[simp] theorem fsWrite_engSrc : (fsWrite j c s).engSrc = s.engSrc := rfl
@[simp] theorem fsWrite_engDst : (fsWrite j c s).engDst = s.engDst := rfl
@[simp] theorem fsWrite_tc : (fsWrite j c s).tc = s.tc := rfl
@[simp] theorem fsWrite_tmrCtrl : (fsWrite j c s).tmrCtrl = s.tmrCtrl := rfl
@[simp] theorem fsWrite_tmrPeriod : (fsWrite j c s).tmrPeriod = s.tmrPeriod := rfl
@[simp] theorem fsWrite_tmrCmp : (fsWrite j c s).tmrCmp = s.tmrCmp := rfl
@[simp] theorem fsWrite_pinMode : (fsWrite j c s).pinMode = s.pinMode := rfl
@[simp] theorem fsWrite_reqPending : (fsWrite j c s).reqPending = s.reqPending := rfl
@[simp] theorem fsWrite_fs : (fsWrite j c s).fs = s.fs.set j c := rfl
@[simp] theorem fsWrite_buf : (fsWrite j c s).buf = s.buf := rfl
@[simp] theorem fsWrite_cmdIn : (fsWrite j c s).cmdIn = s.cmdIn := rfl
@[simp] theorem fsWrite_resp : (fsWrite j c s).resp = s.resp := rfl
@[simp] theorem fsWrite_emitted : (fsWrite j c s).emitted = s.emitted := rfl
@[simp] theorem fsWrite_periods : (fsWrite j c s).periods = s.periods := rfl
@[simp] theorem fsWrite_hostProg : (fsWrite j c s).hostProg = s.hostProg := rfl
@[simp] theorem fsWrite_hostAwait : (fsWrite j c s).hostAwait = s.hostAwait := rfl
@[simp] theorem fsWrite_second : (fsWrite j c s).second = s.second := rfl
@[simp] theorem fsWrite_sched : (fsWrite j c s).sched = s.sched := rfl
@[simp] theorem fsWrite_moves : (fsWrite j c s).moves = s.moves := rfl

end

section
variable (c : Color) (s : State)

@[simp] theorem fsFill_cfg : (fsFill c s).cfg = s.cfg := rfl
@[simp] theorem fsFill_initDone : (fsFill c s).initDone = s.initDone := rfl
@[simp] theorem fsFill_phase : (fsFill c s).phase = s.phase := rfl
@[simp] theorem fsFill_status : (fsFill c s).status = s.status := rfl
@[simp] theorem fsFill_blkFault : (fsFill c s).blkFault = s.blkFault := rfl
@[simp] theorem fsFill_polls : (fsFill c s).polls = s.polls := rfl
@[simp] theorem fsFill_faultCmd : (fsFill c s).faultCmd = s.faultCmd := rfl
@[simp] theorem fsFill_engCfg : (fsFill c s).engCfg = s.engCfg := rfl
@[simp] theorem fsFill_engCnt : (fsFill c s).engCnt = s.engCnt := rfl
@[simp] theorem fsFill_engSrc : (fsFill c s).engSrc = s.engSrc := rfl
@[simp] theorem fsFill_engDst : (fsFill c s).engDst = s.engDst := rfl
@[simp] theorem fsFill_tc : (fsFill c s).tc = s.tc := rfl
@[simp] theorem fsFill_tmrCtrl : (fsFill c s).tmrCtrl = s.tmrCtrl := rfl
@[simp] theorem fsFill_tmrPeriod : (fsFill c s).tmrPeriod = s.tmrPeriod := rfl
@[simp] theorem fsFill_tmrCmp : (fsFill c s).tmrCmp = s.tmrCmp := rfl
@[simp] theorem fsFill_pinMode : (fsFill c s).pinMode = s.pinMode := rfl
@[simp] theorem fsFill_reqPending : (fsFill c s).reqPending = s.reqPending := rfl
@[simp] theorem fsFill_fs : (fsFill c s).fs = List.replicate s.cfg.n c := rfl
@[simp] theorem fsFill_buf : (fsFill c s).buf = s.buf := rfl
@[simp] theorem fsFill_cmdIn : (fsFill c s).cmdIn = s.cmdIn := rfl
@[simp] theorem fsFill_resp : (fsFill c s).resp = s.resp := rfl
@[simp] theorem fsFill_emitted : (fsFill c s).emitted = s.emitted := rfl
@[simp] theorem fsFill_periods : (fsFill c s).periods = s.periods := rfl
@[simp] theorem fsFill_hostProg : (fsFill c s).hostProg = s.hostProg := rfl
@[simp] theorem fsFill_hostAwait : (fsFill c s).hostAwait = s.hostAwait := rfl
@[simp] theorem fsFill_second : (fsFill c s).second = s.second := rfl
@[simp] theorem fsFill_sched : (fsFill c s).sched = s.sched := rfl
@[simp] theorem fsFill_moves : (fsFill c s).moves = s.moves := rfl

end

section
variable (es : List Elem) (s : State)

@[simp] theorem memWriteAll_cfg : (memWriteAll es s).cfg = s.cfg := rfl
@[simp] theorem memWriteAll_initDone : (memWriteAll es s).initDone = s.initDone := rfl
@[simp] theorem memWriteAll_phase : (memWriteAll es s).phase = s.phase := rfl
@[simp] theorem memWriteAll_status : (memWriteAll es s).status = s.status := rfl
@[simp] theorem memWriteAll_blkFault : (memWriteAll es s).blkFault = s.blkFault := rfl
@[simp] theorem memWriteAll_polls : (memWriteAll es s).polls = s.polls := rfl
@[simp] theorem memWriteAll_faultCmd : (memWriteAll es s).faultCmd = s.faultCmd := rfl
@[simp] theorem memWriteAll_engCfg : (memWriteAll es s).engCfg = s.engCfg := rfl
@[simp] theorem memWriteAll_engCnt : (memWriteAll es s).engCnt = s.engCnt := rfl
@[simp] theorem memWriteAll_engSrc : (memWriteAll es s).engSrc = s.engSrc := rfl
@[simp] theorem memWriteAll_engDst : (memWriteAll es s).engDst = s.engDst := rfl
@[simp] theorem memWriteAll_tc : (memWriteAll es s).tc = s.tc := rfl
@[simp] theorem memWriteAll_tmrCtrl : (memWriteAll es s).tmrCtrl = s.tmrCtrl := rfl
@[simp] theorem memWriteAll_tmrPeriod : (memWriteAll es s).tmrPeriod = s.tmrPeriod := rfl
@[simp] theorem memWriteAll_tmrCmp : (memWriteAll es s).tmrCmp = s.tmrCmp := rfl
@[simp] theorem memWriteAll_pinMode : (memWriteAll es s).pinMode = s.pinMode := rfl
@[simp] theorem memWriteAll_reqPending : (memWriteAll es s).reqPending = s.reqPending := rfl
@[simp] theorem memWriteAll_fs : (memWriteAll es s).fs = s.fs := rfl
@[simp] theorem memWriteAll_buf : (memWriteAll es s).buf = es := rfl
@[simp] theorem memWriteAll_cmdIn : (memWriteAll es s).cmdIn = s.cmdIn := rfl
@[simp] theorem memWriteAll_resp : (memWriteAll es s).resp = s.resp := rfl
@[simp] theorem memWriteAll_emitted : (memWriteAll es s).emitted = s.emitted := rfl
@[simp] theorem memWriteAll_periods : (memWriteAll es s).periods = s.periods := rfl
@[simp] theorem memWriteAll_hostProg : (memWriteAll es s).hostProg = s.hostProg := rfl
@[simp] theorem memWriteAll_hostAwait : (memWriteAll es s).hostAwait = s.hostAwait := rfl
@[simp] theorem memWriteAll_second : (memWriteAll es s).second = s.second := rfl
@[simp] theorem memWriteAll_sched : (memWriteAll es s).sched = s.sched := rfl
@[simp] theorem memWriteAll_moves : (memWriteAll es s).moves = s.moves := rfl

end

section
variable (v : Bool) (s : State)

@[simp] theorem setEngEn_cfg : (setEngEn v s).cfg = s.cfg := rfl
@[simp] theorem setEngEn_initDone : (setEngEn v s).initDone = s.initDone := rfl
@[simp] theorem setEngEn_phase : (setEngEn v s).phase = s.phase := rfl
@[simp] theorem setEngEn_status : (setEngEn v s).status = s.status := rfl
@[simp] theorem setEngEn_blkFault : (setEngEn v s).blkFault = s.blkFault := rfl
@[simp] theorem setEngEn_polls : (setEngEn v s).polls = s.polls := rfl
@[simp] theorem setEngEn_faultCmd : (setEngEn v s).faultCmd = s.faultCmd := rfl
@[simp] theorem setEngEn_engCfg : (setEngEn v s).engCfg = { s.engCfg with en := v } := rfl
@[simp] theorem setEngEn_engCnt : (setEngEn v s).engCnt = s.engCnt := rfl
@[simp] theorem setEngEn_engSrc : (setEngEn v s).engSrc = s.engSrc := rfl
@[simp] theorem setEngEn_engDst : (setEngEn v s).engDst = s.engDst := rfl
@[simp] theorem setEngEn_tc : (setEngEn v s).tc = s.tc := rfl
@[simp] theorem setEngEn_tmrCtrl : (setEngEn v s).tmrCtrl = s.tmrCtrl := rfl
@[simp] theorem setEngEn_tmrPeriod : (setEngEn v s).tmrPeriod = s.tmrPeriod := rfl
@[simp] theorem setEngEn_tmrCmp : (setEngEn v s).tmrCmp = s.tmrCmp := rfl
@[simp] theorem setEngEn_pinMode : (setEngEn v s).pinMode = s.pinMode := rfl
@[simp] theorem setEngEn_reqPending : (setEngEn v s).reqPending = s.reqPending := rfl
@[simp] theorem setEngEn_fs : (setEngEn v s).fs = s.fs := rfl
@[simp] theorem setEngEn_buf : (setEngEn v s).buf = s.buf := rfl
@[simp] theorem setEngEn_cmdIn : (setEngEn v s).cmdIn = s.cmdIn := rfl
@[simp] theorem setEngEn_resp : (setEngEn v s).resp = s.resp := rfl
@[simp] theorem setEngEn_emitted : (setEngEn v s).emitted = s.emitted := rfl
@[simp] theorem setEngEn_periods : (setEngEn v s).periods = s.periods := rfl
@[simp] theorem setEngEn_hostProg : (setEngEn v s).hostProg = s.hostProg := rfl
@[simp] theorem setEngEn_hostAwait : (setEngEn v s).hostAwait = s.hostAwait := rfl
@[simp] theorem setEngEn_second : (setEngEn v s).second = s.second := rfl
@[simp] theorem setEngEn_sched : (setEngEn v s).sched = s.sched := rfl
@[simp] theorem setEngEn_moves : (setEngEn v s).moves = s.moves := rfl

end

section
variable (v : Bool) (s : State)

@[simp] theorem setTmrEn_cfg : (setTmrEn v s).cfg = s.cfg := rfl
@[simp] theorem setTmrEn_initDone : (setTmrEn v s).initDone = s.initDone := rfl
@[simp] theorem setTmrEn_phase : (setTmrEn v s).phase = s.phase := rfl
@[simp] theorem setTmrEn_status : (setTmrEn v s).status = s.status := rfl
@[simp] theorem setTmrEn_blkFault : (setTmrEn v s).blkFault = s.blkFault := rfl
@[simp] theorem setTmrEn_polls : (setTmrEn v s).polls = s.polls := rfl
@[simp] theorem setTmrEn_faultCmd : (setTmrEn v s).faultCmd = s.faultCmd := rfl
@[simp] theorem setTmrEn_engCfg : (setTmrEn v s).engCfg = s.engCfg := rfl
@[simp] theorem setTmrEn_engCnt : (setTmrEn v s).engCnt = s.engCnt := rfl
@[simp] theorem setTmrEn_engSrc : (setTmrEn v s).engSrc = s.engSrc := rfl
@[simp] theorem setTmrEn_engDst : (setTmrEn v s).engDst = s.engDst := rfl
@[simp] theorem setTmrEn_tc : (setTmrEn v s).tc = s.tc := rfl
@[simp] theorem setTmrEn_tmrCtrl : (setTmrEn v s).tmrCtrl = { s.tmrCtrl with en := v } := rfl
@[simp] theorem setTmrEn_tmrPeriod : (setTmrEn v s).tmrPeriod = s.tmrPeriod := rfl
@[simp] theorem setTmrEn_tmrCmp : (setTmrEn v s).tmrCmp = s.tmrCmp := rfl
@[simp] theorem setTmrEn_pinMode : (setTmrEn v s).pinMode = s.pinMode := rfl
@[simp] theorem setTmrEn_reqPending : (setTmrEn v s).reqPending = s.reqPending := rfl
@[simp] theorem setTmrEn_fs : (setTmrEn v s).fs = s.fs := rfl
@[simp] theorem setTmrEn_buf : (setTmrEn v s).buf = s.buf := rfl
@[simp] theorem setTmrEn_cmdIn : (setTmrEn v s).cmdIn = s.cmdIn := rfl
@[simp] theorem setTmrEn_resp : (setTmrEn v s).resp = s.resp := rfl
@[simp] theorem setTmrEn_emitted : (setTmrEn v s).emitted = s.emitted := rfl
@[simp] theorem setTmrEn_periods : (setTmrEn v s).periods = s.periods := rfl
@[simp] theorem setTmrEn_hostProg : (setTmrEn v s).hostProg = s.hostProg := rfl
@[simp] theorem setTmrEn_hostAwait : (setTmrEn v s).hostAwait = s.hostAwait := rfl
@[simp] theorem setTmrEn_second : (setTmrEn v s).second = s.second := rfl
@[simp] theorem setTmrEn_sched : (setTmrEn v s).sched = s.sched := rfl
@[simp] theorem setTmrEn_moves : (setTmrEn v s).moves = s.moves := rfl

end

section
variable (n : Nat) (s : State)

@[simp] theorem setEngCnt_cfg : (setEngCnt n s).cfg = s.cfg := rfl
@[simp] theorem setEngCnt_initDone : (setEngCnt n s).initDone = s.initDone := rfl
@[simp] theorem setEngCnt_phase : (setEngCnt n s).phase = s.phase := rfl
@[simp] theorem setEngCnt_status : (setEngCnt n s).status = s.status := rfl
@[simp] theorem setEngCnt_blkFault : (setEngCnt n s).blkFault = s.blkFault := rfl
@[simp] theorem setEngCnt_polls : (setEngCnt n s).polls = s.polls := rfl
@[simp] theorem setEngCnt_faultCmd : (setEngCnt n s).faultCmd = s.faultCmd := rfl
@[simp] theorem setEngCnt_engCfg : (setEngCnt n s).engCfg = s.engCfg := rfl
@[simp] theorem setEngCnt_engCnt : (setEngCnt n s).engCnt = n := rfl
@[simp] theorem setEngCnt_engSrc : (setEngCnt n s).engSrc = s.engSrc := rfl
@[simp] theorem setEngCnt_engDst : (setEngCnt n s).engDst = s.engDst := rfl
@[simp] theorem setEngCnt_tc : (setEngCnt n s).tc = s.tc := rfl
@[simp] theorem setEngCnt_tmrCtrl : (setEngCnt n s).tmrCtrl = s.tmrCtrl := rfl
@[simp] theorem setEngCnt_tmrPeriod : (setEngCnt n s).tmrPeriod = s.tmrPeriod := rfl
@[simp] theorem setEngCnt_tmrCmp : (setEngCnt n s).tmrCmp = s.tmrCmp := rfl
@[simp] theorem setEngCnt_pinMode : (setEngCnt n s).pinMode = s.pinMode := rfl
@[simp] theorem setEngCnt_reqPending : (setEngCnt n s).reqPending = s.reqPending := rfl
@[simp] theorem setEngCnt_fs : (setEngCnt n s).fs = s.fs := rfl
@[simp] theorem setEngCnt_buf : (setEngCnt n s).buf = s.buf := rfl
@[simp] theorem setEngCnt_cmdIn : (setEngCnt n s).cmdIn = s.cmdIn := rfl
@[simp] theorem setEngCnt_resp : (setEngCnt n s).resp = s.resp := rfl
@[simp] theorem setEngCnt_emitted : (setEngCnt n s).emitted = s.emitted := rfl
@[simp] theorem setEngCnt_periods : (setEngCnt n s).periods = s.periods := rfl
@[simp] theorem setEngCnt_hostProg : (setEngCnt n s).hostProg = s.hostProg := rfl
@[simp] theorem setEngCnt_hostAwait : (setEngCnt n s).hostAwait = s.hostAwait := rfl
@[simp] theorem setEngCnt_second : (setEngCnt n s).second = s.second := rfl
@[simp] theorem setEngCnt_sched : (setEngCnt n s).sched = s.sched := rfl
@[simp] theorem setEngCnt_moves : (setEngCnt n s).moves = s.moves := rfl

end

section
variable (n : Nat) (s : State)

@[simp] theorem setPolls_cfg : (setPolls n s).cfg = s.cfg := rfl
@[simp] theorem setPolls_initDone : (setPolls n s).initDone = s.initDone := rfl
@[simp] theorem setPolls_phase : (setPolls n s).phase = s.phase := rfl
@[simp] theorem setPolls_status : (setPolls n s).status = s.status := rfl
@[simp] theorem setPolls_blkFault : (setPolls n s).blkFault = s.blkFault := rfl
@[simp] theorem setPolls_polls : (setPolls n s).polls = n := rfl
@[simp] theorem setPolls_faultCmd : (setPolls n s).faultCmd = s.faultCmd := rfl
@[simp] theorem setPolls_engCfg : (setPolls n s).engCfg = s.engCfg := rfl
@[simp] theorem setPolls_engCnt : (setPolls n s).engCnt = s.engCnt := rfl
@[simp] theorem setPolls_engSrc : (setPolls n s).engSrc = s.engSrc := rfl
@[simp] theorem setPolls_engDst : (setPolls n s).engDst = s.engDst := rfl
@[simp] theorem setPolls_tc : (setPolls n s).tc = s.tc := rfl
@[simp] theorem setPolls_tmrCtrl : (setPolls n s).tmrCtrl = s.tmrCtrl := rfl
@[simp] theorem setPolls_tmrPeriod : (setPolls n s).tmrPeriod = s.tmrPeriod := rfl
@[simp] theorem setPolls_tmrCmp : (setPolls n s).tmrCmp = s.tmrCmp := rfl
@[simp] theorem setPolls_pinMode : (setPolls n s).pinMode = s.pinMode := rfl
@[simp] theorem setPolls_reqPending : (setPolls n s).reqPending = s.reqPending := rfl
@[simp] theorem setPolls_fs : (setPolls n s).fs = s.fs := rfl
@[simp] theorem setPolls_buf : (setPolls n s).buf = s.buf := rfl
@[simp] theorem setPolls_cmdIn : (setPolls n s).cmdIn = s.cmdIn := rfl
@[simp] theorem setPolls_resp : (setPolls n s).resp = s.resp := rfl
@[simp] theorem setPolls_emitted : (setPolls n s).emitted = s.emitted := rfl
@[simp] theorem setPolls_periods : (setPolls n s).periods = s.periods := rfl
@[simp] theorem setPolls_hostProg : (setPolls n s).hostProg = s.hostProg := rfl
@[simp] theorem setPolls_hostAwait : (setPolls n s).hostAwait = s.hostAwait := rfl
@[simp] theorem setPolls_second : (setPolls n s).second = s.second := rfl
@[simp] theorem setPolls_sched : (setPolls n s).sched = s.sched := rfl
@[simp] theorem setPolls_moves : (setPolls n s).moves = s.moves := rfl

end

section
variable (s : State)

@[simp] theorem advance_cfg : (advance s).cfg = s.cfg := rfl
@[simp] theorem advance_initDone : (advance s).initDone = s.initDone := rfl
@[simp] theorem advance_phase : (advance s).phase = s.phase := rfl
@[simp] theorem advance_status : (advance s).status = s.status := rfl
@[simp] theorem advance_blkFault : (advance s).blkFault = s.blkFault := rfl
@[simp] theorem advance_polls : (advance s).polls = s.polls := rfl
@[simp] theorem advance_faultCmd : (advance s).faultCmd = s.faultCmd := rfl
@[simp] theorem advance_engCfg : (advance s).engCfg = s.engCfg := rfl
@[simp] theorem advance_engCnt : (advance s).engCnt = s.engCnt := rfl
@[simp] theorem advance_engSrc : (advance s).engSrc = s.engSrc := rfl
@[simp] theorem advance_engDst : (advance s).engDst = s.engDst := rfl
@[simp] theorem advance_tc : (advance s).tc = s.tc := rfl
@[simp] theorem advance_tmrCtrl : (advance s).tmrCtrl = s.tmrCtrl := rfl
@[simp] theorem advance_tmrPeriod : (advance s).tmrPeriod = s.tmrPeriod := rfl
@[simp] theorem advance_tmrCmp : (advance s).tmrCmp = s.tmrCmp := rfl
@[simp] theorem advance_pinMode : (advance s).pinMode = s.pinMode := rfl
@[simp] theorem advance_reqPending : (advance s).reqPending = s.reqPending := rfl
@[simp] theorem advance_fs : (advance s).fs = s.fs := rfl
@[simp] theorem advance_buf : (advance s).buf = s.buf := rfl
@[simp] theorem advance_cmdIn : (advance s).cmdIn = s.cmdIn := rfl
@[simp] theorem advance_resp : (advance s).resp = s.resp := rfl
@[simp] theorem advance_emitted : (advance s).emitted = s.emitted := rfl
@[simp] theorem advance_periods : (advance s).periods = s.periods := rfl
@[simp] theorem advance_hostProg : (advance s).hostProg = s.hostProg := rfl
@[simp] theorem advance_hostAwait : (advance s).hostAwait = s.hostAwait := rfl
@[simp] theorem advance_second : (advance s).second = s.second := rfl
@[simp] theorem advance_sched : (advance s).sched = s.sched.tail := rfl
@[simp] theorem advance_moves : (advance s).moves = s.moves + 1 := rfl

end

section
variable (s : State)

@[simp] theorem endTransmission_cfg : (endTransmission s).cfg = s.cfg := rfl
@[simp] theorem endTransmission_initDone : (endTransmission s).initDone = s.initDone := rfl
@[simp] theorem endTransmission_phase : (endTransmission s).phase = .idle := rfl
@[simp] theorem endTransmission_status : (endTransmission s).status = .ok := rfl
@[simp] theorem endTransmission_blkFault : (endTransmission s).blkFault = s.blkFault := rfl
@[simp] theorem endTransmission_polls : (endTransmission s).polls = s.polls := rfl
@[simp] theorem endTransmission_faultCmd : (endTransmission s).faultCmd = s.faultCmd := rfl
@[simp] theorem endTransmission_engCfg : (endTransmission s).engCfg = s.engCfg := rfl
@[simp] theorem endTransmission_engCnt : (endTransmission s).engCnt = s.engCnt := rfl
@[simp] theorem endTransmission_engSrc : (endTransmission s).engSrc = s.engSrc := rfl
@[simp] theorem endTransmission_engDst : (endTransmission s).engDst = s.engDst := rfl
@[simp] theorem endTransmission_tc : (endTransmission s).tc = s.tc := rfl
@[simp] theorem endTransmission_tmrCtrl : (endTransmission s).tmrCtrl = { s.tmrCtrl with en := false } := rfl
@[simp] theorem endTransmission_tmrPeriod : (endTransmission s).tmrPeriod = s.tmrPeriod := rfl
@[simp] theorem endTransmission_tmrCmp : (endTransmission s).tmrCmp = s.tmrCmp := rfl
@[simp] theorem endTransmission_pinMode : (endTransmission s).pinMode = s.pinMode := rfl
@[simp] theorem endTransmission_reqPending : (endTransmission s).reqPending = s.reqPending := rfl
@[simp] theorem endTransmission_fs : (endTransmission s).fs = s.fs := rfl
@[simp] theorem endTransmission_buf : (endTransmission s).buf = s.buf := rfl
@[simp] theorem endTransmission_cmdIn : (endTransmission s).cmdIn = s.cmdIn := rfl
@[simp] theorem endTransmission_resp : (endTransmission s).resp = s.resp := rfl
@[simp] theorem endTransmission_emitted : (endTransmission s).emitted = s.emitted := rfl
@[simp] theorem endTransmission_periods : (endTransmission s).periods = s.periods := rfl
@[simp] theorem endTransmission_hostProg : (endTransmission s).hostProg = s.hostProg := rfl
@[simp] theorem endTransmission_hostAwait : (endTransmission s).hostAwait = s.hostAwait := rfl
@[simp] theorem endTransmission_second : (endTransmission s).second = s.second := rfl
@[simp] theorem endTransmission_sched : (endTransmission s).sched = s.sched := rfl
@[simp] theorem endTransmission_moves : (endTransmission s).moves = s.moves := rfl

end

section
variable (s : State)

@[simp] theorem abortTransmission_cfg : (abortTransmission s).cfg = s.cfg := rfl
@[simp] theorem abortTransmission_initDone : (abortTransmission s).initDone = s.initDone := rfl
@[simp] theorem abortTransmission_phase : (abortTransmission s).phase = .idle := rfl
@[simp] theorem abortTransmission_status : (abortTransmission s).status = .timedOut := rfl
@[simp] theorem abortTransmission_blkFault : (abortTransmission s).blkFault = s.blkFault := rfl
@[simp] theorem abortTransmission_polls : (abortTransmission s).polls = s.polls := rfl
@[simp] theorem abortTransmission_faultCmd : (abortTransmission s).faultCmd = s.faultCmd := rfl
@[simp] theorem abortTransmission_engCfg : (abortTransmission s).engCfg = { s.engCfg with en := false } := rfl
@[simp] theorem abortTransmission_engCnt : (abortTransmission s).engCnt = 0 := rfl
@[simp] theorem abortTransmission_engSrc : (abortTransmission s).engSrc = s.engSrc := rfl
@[simp] theorem abortTransmission_engDst : (abortTransmission s).engDst = s.engDst := rfl
@[simp] theorem abortTransmission_tc : (abortTransmission s).tc = false := rfl
@[simp] theorem abortTransmission_tmrCtrl : (abortTransmission s).tmrCtrl = { s.tmrCtrl with en := false } := rfl
@[simp] theorem abortTransmission_tmrPeriod : (abortTransmission s).tmrPeriod = s.tmrPeriod := rfl
@[simp] theorem abortTransmission_tmrCmp : (abortTransmission s).tmrCmp = 0 := rfl
@[simp] theorem abortTransmission_pinMode : (abortTransmission s).pinMode = s.pinMode := rfl
@[simp] theorem abortTransmission_reqPending : (abortTransmission s).reqPending = s.reqPending := rfl
@[simp] theorem abortTransmission_fs : (abortTransmission s).fs = s.fs := rfl
@[simp] theorem abortTransmission_buf : (abortTransmission s).buf = s.buf := rfl
@[simp] theorem abortTransmission_cmdIn : (abortTransmission s).cmdIn = s.cmdIn := rfl
@[simp] theorem abortTransmission_resp : (abortTransmission s).resp = s.resp := rfl
@[simp] theorem abortTransmission_emitted : (abortTransmission s).emitted = s.emitted := rfl
@[simp] theorem abortTransmission_periods : (abortTransmission s).periods = s.periods := rfl
@[simp] theorem abortTransmission_hostProg : (abortTransmission s).hostProg = s.hostProg := rfl
@[simp] theorem abortTransmission_hostAwait : (abortTransmission s).hostAwait = s.hostAwait := rfl
@[simp] theorem abortTransmission_second : (abortTransmission s).second = s.second := rfl
@[simp] theorem abortTransmission_sched : (abortTransmission s).sched = s.sched := rfl
@[simp] theorem abortTransmission_moves : (abortTransmission s).moves = s.moves := rfl

end

section
variable (s : State)

@[simp] theorem configure_cfg : (configure s).cfg = s.cfg := rfl
@[simp] theorem configure_initDone : (configure s).initDone = true := rfl
@[simp] theorem configure_phase : (configure s).phase = s.phase := rfl
@[simp] theorem configure_status : (configure s).status = s.status := rfl
@[simp] theorem configure_blkFault : (configure s).blkFault = s.blkFault := rfl
@[simp] theorem configure_polls : (configure s).polls = s.polls := rfl
@[simp] theorem configure_faultCmd : (configure s).faultCmd = s.faultCmd := rfl
@[simp] theorem configure_engCfg : (configure s).engCfg = initEngCfg s.engCfg := rfl
@[simp] theorem configure_engCnt : (configure s).engCnt = s.engCnt := rfl
@[simp] theorem configure_engSrc : (configure s).engSrc = .buf := rfl
@[simp] theorem configure_engDst : (configure s).engDst = .tmrCmp := rfl
@[simp] theorem configure_tc : (configure s).tc = s.tc := rfl
@[simp] theorem configure_tmrCtrl : (configure s).tmrCtrl = initTmrCtrl s.tmrCtrl := rfl
@[simp] theorem configure_tmrPeriod : (configure s).tmrPeriod = BitVec.ofNat 16 s.cfg.period := rfl
@[simp] theorem configure_tmrCmp : (configure s).tmrCmp = 0 := rfl
@[simp] theorem configure_pinMode : (configure s).pinMode = true := rfl
@[simp] theorem configure_reqPending : (configure s).reqPending = s.reqPending := rfl
@[simp] theorem configure_fs : (configure s).fs = s.fs := rfl
@[simp] theorem configure_buf : (configure s).buf = s.buf := rfl
@[simp] theorem configure_cmdIn : (configure s).cmdIn = s.cmdIn := rfl
@[simp] theorem configure_resp : (configure s).resp = s.resp := rfl
@[simp] theorem configure_emitted : (configure s).emitted = s.emitted := rfl
@[simp] theorem configure_periods : (configure s).periods = s.periods := rfl
@[simp] theorem configure_hostProg : (configure s).hostProg = s.hostProg := rfl
@[simp] theorem configure_hostAwait : (configure s).hostAwait = s.hostAwait := rfl
@[simp] theorem configure_second : (configure s).second = s.second := rfl
@[simp] theorem configure_sched : (configure s).sched = s.sched := rfl
@[simp] theorem configure_moves : (configure s).moves = s.moves := rfl

end

section
variable (s : State)

theorem clearPolls_eq : clearPolls s = { s with polls := if s.cfg.waitBound.isSome then 0 else s.polls } := by
  unfold clearPolls; split <;> rfl
@[simp] theorem clearPolls_cfg : (clearPolls s).cfg = s.cfg := by rw [clearPolls_eq]
@[simp] theorem clearPolls_initDone : (clearPolls s).initDone = s.initDone := by rw [clearPolls_eq]
@[simp] theorem clearPolls_phase : (clearPolls s).phase = s.phase := by rw [clearPolls_eq]
@[simp] theorem clearPolls_status : (clearPolls s).status = s.status := by rw [clearPolls_eq]
@[simp] theorem clearPolls_blkFault : (clearPolls s).blkFault = s.blkFault := by rw [clearPolls_eq]
@[simp] theorem clearPolls_polls : (clearPolls s).polls = if s.cfg.waitBound.isSome then 0 else s.polls := by rw [clearPolls_eq]
@[simp] theorem clearPolls_faultCmd : (clearPolls s).faultCmd = s.faultCmd := by rw [clearPolls_eq]
@[simp] theorem clearPolls_engCfg : (clearPolls s).engCfg = s.engCfg := by rw [clearPolls_eq]
@[simp] theorem clearPolls_engCnt : (clearPolls s).engCnt = s.engCnt := by rw [clearPolls_eq]
@[simp] theorem clearPolls_engSrc : (clearPolls s).engSrc = s.engSrc := by rw [clearPolls_eq]
@[simp] theorem clearPolls_engDst : (clearPolls s).engDst = s.engDst := by rw [clearPolls_eq]
@[simp] theorem clearPolls_tc : (clearPolls s).tc = s.tc := by rw [clearPolls_eq]
@[simp] theorem clearPolls_tmrCtrl : (clearPolls s).tmrCtrl = s.tmrCtrl := by rw [clearPolls_eq]
@[simp] theorem clearPolls_tmrPeriod : (clearPolls s).tmrPeriod = s.tmrPeriod := by rw [clearPolls_eq]
@[simp] theorem clearPolls_tmrCmp : (clearPolls s).tmrCmp = s.tmrCmp := by rw [clearPolls_eq]
@[simp] theorem clearPolls_pinMode : (clearPolls s).pinMode = s.pinMode := by rw [clearPolls_eq]
@[simp] theorem clearPolls_reqPending : (clearPolls s).reqPending = s.reqPending := by rw [clearPolls_eq]
@[simp] theorem clearPolls_fs : (clearPolls s).fs = s.fs := by rw [clearPolls_eq]
@[simp] theorem clearPolls_buf : (clearPolls s).buf = s.buf := by rw [clearPolls_eq]
@[simp] theorem clearPolls_cmdIn : (clearPolls s).cmdIn = s.cmdIn := by rw [clearPolls_eq]
@[simp] theorem clearPolls_resp : (clearPolls s).resp = s.resp := by rw [clearPolls_eq]
@[simp] theorem clearPolls_emitted : (clearPolls s).emitted = s.emitted := by rw [clearPolls_eq]
@[simp] theorem clearPolls_periods : (clearPolls s).periods = s.periods := by rw [clearPolls_eq]
@[simp] theorem clearPolls_hostProg : (clearPolls s).hostProg = s.hostProg := by rw [clearPolls_eq]
@[simp] theorem clearPolls_hostAwait : (clearPolls s).hostAwait = s.hostAwait := by rw [clearPolls_eq]
@[simp] theorem clearPolls_second : (clearPolls s).second = s.second := by rw [clearPolls_eq]
@[simp] theorem clearPolls_sched : (clearPolls s).sched = s.sched := by rw [clearPolls_eq]
@[simp] theorem clearPolls_moves : (clearPolls s).moves = s.moves := by rw [clearPolls_eq]

end

/-- `respond(DONE, STATUS)` is one form of `respond`, whose lemmas stand above. -/
@[simp] theorem respondDone_eq (st : TxStatus) (s : State) :
    respondDone st s = respond .done ((statusBit st).setWidth 24) s := rfl

end Sys2Proof.Machine
end

