-- ==== Sys2Proof/Laws/Ops.lean ====
section
/-!
SUPPORT. For each shared operation, once, everything it can do: the forms of a meaning (whenLive, command, phaseStep),
the checks of R207, the moves of the issuers, and fetch. Later proofs cite these and do not unfold the operations.
-/

namespace Sys2Proof.Machine

@[simp] theorem faulted_eq_false {s : State} : faulted s = false ↔ s.blkFault = 0#32 := by simp [faulted]

@[simp] theorem faulted_eq_true {s : State} : faulted s = true ↔ s.blkFault ≠ 0#32 := by simp [faulted]

theorem faultMask_ne_zero (code : FaultCode) : faultMask code ≠ 0 := by cases code <;> decide

/-- A step behind `whenLive` reaches a next state exactly when no fault is recorded and the step itself does. -/
theorem whenLive_next {s t : State} {k : Result} : whenLive s k = .next t ↔ s.blkFault = 0#32 ∧ k = .next t := by
  by_cases h : s.blkFault = 0#32
  · simp [whenLive, h]
  · simp [whenLive, h]

theorem whenLive_live {s : State} (h : s.blkFault = 0#32) (k : Result) : whenLive s k = k := by
  simp [whenLive, faulted_eq_false.2 h]

theorem whenLive_faulted {s : State} (h : s.blkFault ≠ 0#32) (k : Result) : whenLive s k = .fault .quiescent := by
  simp [whenLive, h]

/-- A step behind `whenLive` never refuses and stops as `k` does, or quiescent. -/
theorem whenLive_cases (s : State) (k : Result) :
    s.blkFault = 0#32 ∧ whenLive s k = k ∨ s.blkFault ≠ 0#32 ∧ whenLive s k = .fault .quiescent := by
  by_cases h : s.blkFault = 0#32
  · exact .inl ⟨h, whenLive_live h k⟩
  · exact .inr ⟨h, whenLive_faulted h k⟩

/-- Everything a command can do: record the first fault that applies, or run its effect with the word consumed. -/
theorem command_next {i : Instr} {k : State → Result} {s t : State} :
    command i k s = .next t ↔
      s.blkFault = 0#32 ∧ ((∃ code, firstFault i s = some code ∧ t = raiseFault code (commandWord i) s) ∨
        (firstFault i s = none ∧ k (consume s) = .next t)) := by
  unfold command
  rw [whenLive_next]
  cases firstFault i s with
  | none => simp
  | some code => simp [eq_comm (a := t)]

theorem command_none {i : Instr} {k : State → Result} {s : State} (hl : s.blkFault = 0#32) (h : firstFault i s = none) :
    command i k s = k (consume s) := by
  simp [command, whenLive_live hl, h]

theorem command_some {i : Instr} {k : State → Result} {s : State} {code : FaultCode} (hl : s.blkFault = 0#32)
    (h : firstFault i s = some code) : command i k s = .next (raiseFault code (commandWord i) s) := by
  simp [command, whenLive_live hl, h]

/-- Everything a controller step can do: its effect in its phase, nothing in another. -/
theorem phaseStep_next {p : Phase} {k : State → Result} {s t : State} :
    phaseStep p k s = .next t ↔ s.blkFault = 0#32 ∧ (s.phase = p ∧ k s = .next t ∨ s.phase ≠ p ∧ t = s) := by
  unfold phaseStep
  rw [whenLive_next]
  by_cases h : s.phase = p
  · simp [h]
  · simp [h, hold, eq_comm (a := t)]

theorem phaseStep_own {p : Phase} {k : State → Result} {s : State} (hl : s.blkFault = 0#32) (hp : s.phase = p) :
    phaseStep p k s = k s := by
  simp [phaseStep, whenLive_live hl, hp]

theorem phaseStep_other {p : Phase} {k : State → Result} {s : State} (hl : s.blkFault = 0#32) (hp : s.phase ≠ p) :
    phaseStep p k s = .next s := by
  simp [phaseStep, whenLive_live hl, hp, hold]

/-- When no check of R207 applies to a command. -/
theorem firstFault_none {i : Instr} {s : State} :
    firstFault i s = none ↔
      i.wellFormed s.cfg = true ∧ s.phase = .idle ∧ (i = .init → s.initDone = false) ∧
        (i ≠ .init → s.initDone = true) ∧ ∀ idx, checkedIndex i = some idx → indexInRange idx s = true := by
  unfold firstFault
  split_ifs <;> simp_all [Option.any_eq_true]

/-- The host's move changes nothing but `RESP`, `CMD_IN` and the host's own side. -/
theorem hostMove_cases (s : State) :
    hostMove s = s ∨ (s.resp.isSome = true ∧ hostMove s = { s with resp := none, hostAwait := false }) ∨
      ∃ w ws, s.resp = none ∧ s.hostAwait = false ∧ s.cmdIn = none ∧ s.hostProg = w :: ws ∧
        hostMove s = { s with cmdIn := some w, hostProg := ws, hostAwait := true } := by
  unfold hostMove
  split
  · rename_i h; right; left; simp [h]
  · rename_i h
    split
    · right; right; simp_all
    all_goals left; rfl

/-- The second issuer's move changes nothing but `CMD_IN` and its own list. -/
theorem secondMove_cases (s : State) :
    secondMove s = s ∨ ∃ w ws, s.cmdIn = none ∧ s.second = w :: ws ∧
      secondMove s = { s with cmdIn := some w, second := ws } := by
  unfold secondMove
  split
  · right; simp_all
  all_goals left; rfl

@[simp] theorem decodePhase_phaseCode (p : Phase) : decodePhase (phaseCode p) = phaseInstr p := by cases p <;> rfl

/-- Everything a step that reaches a next state can be. -/
theorem step_next {s t : State} (h : step s = .next t) :
    s.blkFault = 0#32 ∧
      ((∃ w, s.cmdIn = some w ∧
          ((∃ i, decodeCommand s.cfg.hasGetter w = .ok i ∧ exec i s = .next t) ∨
           (∃ r, decodeCommand s.cfg.hasGetter w = .error r ∧ t = raiseFault .illegalCommand w s))) ∨
       (s.cmdIn = none ∧
          ((nextAgent s = .host ∧ t = hostMove (advance s)) ∨
           (nextAgent s = .second ∧ t = secondMove (advance s)) ∨
           (nextAgent s = .controller ∧ s.phase = .idle ∧ t = advance s) ∨
           (nextAgent s = .controller ∧ ∃ i, phaseInstr s.phase = .ok i ∧ exec i (advance s) = .next t) ∨
           (nextAgent s = .timer ∧ exec .timerPeriod (advance s) = .next t) ∨
           (nextAgent s = .engine ∧ exec .engineService (advance s) = .next t)))) := by
  unfold step fetch at h
  by_cases hl : faulted s = true
  · simp [hl] at h
  · have hl' : s.blkFault = 0#32 := by simpa using hl
    refine ⟨hl', ?_⟩
    simp only [hl, Bool.false_eq_true, if_false] at h
    cases hc : s.cmdIn with
    | some w =>
      left
      refine ⟨w, rfl, ?_⟩
      simp only [hc, fetchWord] at h
      cases hd : decodeCommand s.cfg.hasGetter w with
      | ok i => exact .inl ⟨i, rfl, by simpa [hd] using h⟩
      | error r => exact .inr ⟨r, rfl, by simpa [hd, eq_comm] using h⟩
    | none =>
      right
      refine ⟨rfl, ?_⟩
      simp only [hc, fetchMove] at h
      cases ha : nextAgent s with
      | host => simp [ha] at h; simp [h]
      | second => simp [ha] at h; simp [h]
      | timer => simp [ha, decodeEvent] at h; simp [h]
      | engine => simp [ha, decodeEvent] at h; simp [h]
      | controller =>
        simp only [ha, advance_phase, decodePhase_phaseCode] at h
        cases hp : phaseInstr s.phase with
        | ok i => simp [hp] at h; simp [h]
        | error r =>
          have : s.phase = .idle := by
            cases hs : s.phase <;> simp [hs, phaseInstr] at hp ⊢
          simp [hp] at h
          simp [h, this]

/-- A run of no step. -/
theorem core_run_zero (s : State) : Sys2Proof.core.run 0 s = .next s := rfl

/-- A run of one step more reaches a next state exactly when its first step does and the rest does from there. -/
theorem core_run_succ {n : Nat} {s t : State} :
    Sys2Proof.core.run (n + 1) s = .next t ↔ ∃ u, step s = .next u ∧ Sys2Proof.core.run n u = .next t := by
  have h0 : Sys2Proof.core.step s = step s := rfl
  simp only [Host.Core.run]
  rw [h0]
  cases h : step s with
  | next u => exact ⟨fun k => ⟨u, rfl, k⟩, fun ⟨v, hv, k⟩ => by cases hv; exact k⟩
  | fault r => exact ⟨fun k => (by cases k), fun ⟨v, hv, _⟩ => (by cases hv)⟩
  | refused r => exact ⟨fun k => (by cases k), fun ⟨v, hv, _⟩ => (by cases hv)⟩

end Sys2Proof.Machine
end

