-- ==== Sys2Proof/Laws/Exec.lean ====
section
/-!
SUPPORT. For each instruction, once, every next state its meaning can reach: a recorded fault or the command's effect, the
phase's effect or nothing, the event's effect or nothing. Later proofs cite these and do not unfold the meanings.
-/

namespace Sys2Proof.Machine

variable {s t : State}

/-- What a command's next states are: the first fault recorded, or the given effect. -/
abbrev CommandNext (i : Instr) (s t : State) (effect : Prop) : Prop :=
  s.blkFault = 0#32 ∧
    ((∃ code, firstFault i s = some code ∧ t = raiseFault code (commandWord i) s) ∨ firstFault i s = none ∧ effect)

/-- What a controller step's next states are: the given effect in its phase, nothing in another. -/
abbrev PhaseNext (p : Phase) (s t u : State) : Prop :=
  s.blkFault = 0#32 ∧ (s.phase = p ∧ t = u ∨ s.phase ≠ p ∧ t = s)

theorem execInit_next : execInit s = .next t ↔
    CommandNext .init s t (t = respond .ack 0 (configure (consume s))) := by
  simp [execInit, command_next, CommandNext, eq_comm (b := t)]

@[simp] theorem indexInRange_consume (idx : BitVec 16) (s : State) :
    indexInRange idx (consume s) = indexInRange idx s := rfl

theorem setPixelEffect_eq (idx : BitVec 16) (c : Color) (s : State) : setPixelEffect idx c s =
    .next (respond .ack 0 (if indexInRange idx s then fsWrite (pixelIndex idx) c s else s)) := rfl

theorem execSetPixel_next {idx : BitVec 16} {c : Color} : execSetPixel idx c s = .next t ↔
    CommandNext (.setPixel idx c) s t (t = respond .ack 0
      (if indexInRange idx s then fsWrite (pixelIndex idx) c (consume s) else consume s)) := by
  rw [execSetPixel, command_next]
  refine and_congr_right fun _ => or_congr_right (and_congr_right fun _ => ?_)
  rw [setPixelEffect_eq, indexInRange_consume, Host.Outcome.next.injEq]
  exact eq_comm

theorem execSetPixelChannels_next {idx : BitVec 16} {r g b : Byte} : execSetPixelChannels idx r g b s = .next t ↔
    CommandNext (.setPixelChannels idx r g b) s t (t = respond .ack 0
      (if indexInRange idx s then fsWrite (pixelIndex idx) ⟨r, g, b⟩ (consume s) else consume s)) := by
  rw [execSetPixelChannels, command_next]
  refine and_congr_right fun _ => or_congr_right (and_congr_right fun _ => ?_)
  rw [setPixelEffect_eq, indexInRange_consume, Host.Outcome.next.injEq]
  exact eq_comm

theorem execFill_next {c : Color} : execFill c s = .next t ↔
    CommandNext (.fill c) s t (t = respond .ack 0 (fsFill c (consume s))) := by
  simp [execFill, command_next, CommandNext, eq_comm (b := t)]

theorem execTransmit_next : execTransmit s = .next t ↔
    CommandNext .transmit s t (t = setPhase .encode (clearPolls (consume s))) := by
  simp [execTransmit, command_next, CommandNext, eq_comm (b := t)]

theorem execGetPixel_next {idx : BitVec 16} : execGetPixel idx s = .next t ↔
    CommandNext (.getPixel idx) s t (∃ c, fsRead s (pixelIndex idx) = some c ∧
      t = respond .color (colorPayload c) (consume s)) := by
  have hr : fsRead (consume s) (pixelIndex idx) = fsRead s (pixelIndex idx) := rfl
  simp only [execGetPixel, command_next, CommandNext, hr]
  cases fsRead s (pixelIndex idx) <;> simp [eq_comm (b := t)]

theorem execEncode_next : execEncode s = .next t ↔ PhaseNext .encode s t (setPhase .engDisable (memWriteAll (enc s.cfg s.fs) s)) := by
  simp [execEncode, phaseStep_next, PhaseNext, eq_comm (b := t)]

theorem execEngDisable_next : execEngDisable s = .next t ↔ PhaseNext .engDisable s t (setPhase .engLoad (setEngEn false s)) := by
  simp [execEngDisable, phaseStep_next, PhaseNext, eq_comm (b := t)]

theorem execEngLoad_next : execEngLoad s = .next t ↔ PhaseNext .engLoad s t (setPhase .engEnable (setEngCnt s.cfg.len s)) := by
  simp [execEngLoad, phaseStep_next, PhaseNext, eq_comm (b := t)]

theorem execEngEnable_next : execEngEnable s = .next t ↔ PhaseNext .engEnable s t (setPhase .tmrEnable (setEngEn true s)) := by
  simp [execEngEnable, phaseStep_next, PhaseNext, eq_comm (b := t)]

theorem execTmrEnable_next : execTmrEnable s = .next t ↔ PhaseNext .tmrEnable s t (setPhase .wait (setTmrEn true s)) := by
  simp [execTmrEnable, phaseStep_next, PhaseNext, eq_comm (b := t)]

/-- The three things a poll can do (R148). -/
theorem execWait_next : execWait s = .next t ↔
    s.blkFault = 0#32 ∧
      (s.phase = .wait ∧
        (s.tc = true ∧ t = setPhase .clearTc s ∨
         s.tc = false ∧ s.cfg.waitBound = none ∧ t = s ∨
         s.tc = false ∧ ∃ b, s.cfg.waitBound = some b ∧
           t = if s.polls + 1 = b then setPhase .abort (setPolls (s.polls + 1) s) else setPolls (s.polls + 1) s) ∨
       s.phase ≠ .wait ∧ t = s) := by
  simp only [execWait, phaseStep_next]
  by_cases ht : s.tc = true
  · simp [ht, eq_comm (b := t)]
  · cases hb : s.cfg.waitBound with
    | none => simp [ht, failedPoll, hold, hb, eq_comm (b := t)]
    | some b =>
      by_cases h : s.polls + 1 = b
      · simp [ht, failedPoll, hb, h, eq_comm (b := t)]
      · simp [ht, failedPoll, hb, h, eq_comm (b := t)]

theorem execClearTc_next : execClearTc s = .next t ↔ PhaseNext .clearTc s t (setPhase .tmrDisable (setTc false s)) := by
  simp [execClearTc, phaseStep_next, PhaseNext, eq_comm (b := t)]

theorem execTmrDisable_next : execTmrDisable s = .next t ↔ PhaseNext .tmrDisable s t (respondDone .ok (endTransmission s)) := by
  simp [execTmrDisable, phaseStep_next, PhaseNext, eq_comm (b := t)]

theorem execAbort_next : execAbort s = .next t ↔ PhaseNext .abort s t (respondDone .timedOut (abortTransmission s)) := by
  simp [execAbort, phaseStep_next, PhaseNext, eq_comm (b := t)]

/-- A period event, or nothing (R175, R177). -/
theorem execTimerPeriod_next : execTimerPeriod s = .next t ↔
    s.blkFault = 0#32 ∧
      (s.tmrCtrl.en = true ∧ s.reqPending = false ∧
        t = { s with periods := s.periods ++ [s.tmrCmp], reqPending := s.tmrCtrl.reqEn } ∨
       (s.tmrCtrl.en = false ∨ s.reqPending = true) ∧ t = s) := by
  rw [execTimerPeriod, whenLive_next]
  by_cases he : s.tmrCtrl.en = true ∧ s.reqPending = false
  · by_cases hq : s.tmrCtrl.reqEn = true
    · simp [periodEnabled, he, hq, periodEvent, logPeriod, setReqPending, eq_comm (b := t)]
    · simp [periodEnabled, he, hq, periodEvent, logPeriod, eq_comm (b := t)]
  · have he' : s.tmrCtrl.en = false ∨ s.reqPending = true := by
      by_cases h : s.tmrCtrl.en = true
      · exact .inr (by simpa [h] using he)
      · exact .inl (by simpa using h)
    have hp : periodEnabled s = false := by rcases he' with h | h <;> simp [periodEnabled, h]
    have hn : ∀ q : Prop, ¬ (s.tmrCtrl.en = true ∧ s.reqPending = false ∧ q) := fun _ h => he ⟨h.1, h.2.1⟩
    simp [hp, hold, he', hn, eq_comm (b := t)]

theorem transferElement_eq (v : Elem) (h : 0 < s.engCnt) : transferElement v (setReqPending false s) =
    { s with
      reqPending := false, tmrCmp := v, emitted := s.emitted ++ [v], engCnt := s.engCnt - 1,
      tc := s.tc || s.engCnt == 1 } := by
  by_cases h1 : s.engCnt = 1
  · simp [transferElement, logWrite, setTc, setReqPending, h1]
  · have h0 : ¬ s.engCnt - 1 = 0 := by omega
    have h2 : (s.engCnt == 1) = false := by simpa using h1
    simp only [transferElement, logWrite, setReqPending, h0, h2, if_false, Bool.or_false]

/-- A transfer of the element at `LEN - CNT`, a dropped request, or nothing (R176). -/
theorem execEngineService_next : execEngineService s = .next t ↔
    s.blkFault = 0#32 ∧
      (s.reqPending = true ∧ s.engCfg.en = true ∧ 0 < s.engCnt ∧ s.engCnt ≤ s.cfg.len ∧
        (∃ v, s.buf[s.cfg.len - s.engCnt]? = some v ∧
          t = { s with
            reqPending := false, tmrCmp := v, emitted := s.emitted ++ [v], engCnt := s.engCnt - 1,
            tc := s.tc || s.engCnt == 1 }) ∨
       s.reqPending = true ∧ (s.engCfg.en = false ∨ s.engCnt = 0) ∧ t = setReqPending false s ∨
       s.reqPending = false ∧ t = s) := by
  rw [execEngineService, whenLive_next]
  by_cases hr : s.reqPending = true
  · by_cases hc : s.engCfg.en = true ∧ 0 < s.engCnt
    · have h0 : s.engCnt ≠ 0 := by omega
      by_cases hle : s.engCnt ≤ s.cfg.len
      · cases hv : s.buf[s.cfg.len - s.engCnt]? with
        | none => simp [hr, resolveRequest, hc, h0, transfer, sourceElement, memRead, hle, hv]
        | some v =>
          have he := transferElement_eq v hc.2
          simp [hr, resolveRequest, hc, h0, transfer, sourceElement, memRead, hle, hv, he, eq_comm (b := t)]
      · simp [hr, resolveRequest, hc, h0, transfer, sourceElement, hle]
    · have hc' : s.engCfg.en = false ∨ s.engCnt = 0 := by
        by_cases h : s.engCfg.en = true
        · exact .inr (by simpa [h] using hc)
        · exact .inl (by simpa using h)
      have hn : ∀ q : Prop, ¬ (s.engCfg.en = true ∧ 0 < s.engCnt ∧ q) := fun _ h => hc ⟨h.1, h.2.1⟩
      simp [hr, resolveRequest, hc, hc', hn, eq_comm (b := t)]
  · simp [hr, hold, eq_comm (b := t)]

end Sys2Proof.Machine
end

