-- ==== Sys2Proof/Laws/PerInstr.lean ====
section
/-!
SUPPORT. The family EncodesIntoItsRow: the encoding of an instruction has its row's format; a command's word has its row's
match on its row's mask (R85), and a controller step's code is its phase's (R21).
-/

namespace Sys2Proof.Laws.EncodesIntoItsRow

/-- The row of the opcode map that a command belongs to (R84). -/
def row : Instr → Option Cmd
  | .init => some .init
  | .setPixel _ _ => some .setPixel
  | .setPixelChannels _ _ _ _ => some .setPixelChannels
  | .fill _ => some .fill
  | .transmit => some .transmit
  | .getPixel _ => some .getPixel
  | .encode | .engDisable | .engLoad | .engEnable | .tmrEnable | .wait | .clearTc | .tmrDisable | .abort => none
  | .timerPeriod | .engineService => none

/-- What the family says of an instruction. -/
def Statement (i : Instr) : Prop :=
  match encode i with
  | .command w => ∃ x, row i = some x ∧ x.spells w = true ∧ opOf w = x.opcode
  | .phase code => row i = none ∧ ∃ p, i.phase? = some p ∧ phaseCode p = code
  | .event _ => row i = none ∧ i.phase? = none

theorem setPixel_spells (idx : BitVec 16) (c : Color) : Cmd.spells .setPixel (cmdWord 0x02#8 idx c) = true := by
  simp only [Cmd.spells, Cmd.mask, Cmd.pat, beq_iff_eq]
  apply BitVec.eq_of_getLsbD_eq
  intro k hk
  rw [BitVec.getLsbD_and, cmdWord_getLsbD]
  split_ifs <;> (interval_cases k <;> simp)

theorem setPixelChannels_spells (idx : BitVec 16) (c : Color) :
    Cmd.spells .setPixelChannels (cmdWord 0x03#8 idx c) = true := by
  simp only [Cmd.spells, Cmd.mask, Cmd.pat, beq_iff_eq]
  apply BitVec.eq_of_getLsbD_eq
  intro k hk
  rw [BitVec.getLsbD_and, cmdWord_getLsbD]
  split_ifs <;> (interval_cases k <;> simp)

theorem fill_spells (c : Color) : Cmd.spells .fill (cmdWord 0x04#8 0 c) = true := by
  simp only [Cmd.spells, Cmd.mask, Cmd.pat, beq_iff_eq]
  apply BitVec.eq_of_getLsbD_eq
  intro k hk
  rw [BitVec.getLsbD_and, cmdWord_getLsbD]
  split_ifs <;> (interval_cases k <;> simp)

theorem getPixel_spells (idx : BitVec 16) : Cmd.spells .getPixel (cmdWord 0x06#8 idx ⟨0, 0, 0⟩) = true := by
  simp only [Cmd.spells, Cmd.mask, Cmd.pat, beq_iff_eq]
  apply BitVec.eq_of_getLsbD_eq
  intro k hk
  rw [BitVec.getLsbD_and, cmdWord_getLsbD]
  split_ifs <;> (interval_cases k <;> simp)

theorem init : Statement .init := ⟨.init, rfl, by decide, by decide⟩

theorem setPixel (idx : BitVec 16) (color : Color) : Statement (.setPixel idx color) :=
  ⟨.setPixel, rfl, setPixel_spells idx color, opOf_cmdWord ..⟩

theorem setPixelChannels (idx : BitVec 16) (r g b : Byte) : Statement (.setPixelChannels idx r g b) :=
  ⟨.setPixelChannels, rfl, setPixelChannels_spells idx ⟨r, g, b⟩, opOf_cmdWord ..⟩

theorem fill (color : Color) : Statement (.fill color) := ⟨.fill, rfl, fill_spells color, opOf_cmdWord ..⟩

theorem transmit : Statement .transmit := ⟨.transmit, rfl, by decide, by decide⟩

theorem getPixel (idx : BitVec 16) : Statement (.getPixel idx) :=
  ⟨.getPixel, rfl, getPixel_spells idx, opOf_cmdWord ..⟩

theorem encode : Statement .encode := ⟨rfl, .encode, rfl, rfl⟩

theorem engDisable : Statement .engDisable := ⟨rfl, .engDisable, rfl, rfl⟩

theorem engLoad : Statement .engLoad := ⟨rfl, .engLoad, rfl, rfl⟩

theorem engEnable : Statement .engEnable := ⟨rfl, .engEnable, rfl, rfl⟩

theorem tmrEnable : Statement .tmrEnable := ⟨rfl, .tmrEnable, rfl, rfl⟩

theorem wait : Statement .wait := ⟨rfl, .wait, rfl, rfl⟩

theorem clearTc : Statement .clearTc := ⟨rfl, .clearTc, rfl, rfl⟩

theorem tmrDisable : Statement .tmrDisable := ⟨rfl, .tmrDisable, rfl, rfl⟩

theorem abort : Statement .abort := ⟨rfl, .abort, rfl, rfl⟩

theorem timerPeriod : Statement .timerPeriod := ⟨rfl, rfl⟩

theorem engineService : Statement .engineService := ⟨rfl, rfl⟩

end Sys2Proof.Laws.EncodesIntoItsRow
end

