-- ==== Sys2Proof/Tests/Slice0.lean ====
section
/-!
SUPPORT. The model's own tests. Expected results are the vectors of 95_test_vectors.md, named by their ids, or are worked
out from the rule cited. A `witness_` theorem shows that the hypotheses of the obligation it names can be met together.
-/

namespace Sys2Proof.Tests

open Sys2Proof Sys2Proof.Machine

set_option Elab.async false

/-! ## Helpers -/

/-- Whether an outcome is a next state that passes a check. -/
def nextIs (o : Result) (p : State → Bool) : Bool :=
  match o with
  | .next t => p t
  | .fault _ => false
  | .refused _ => false

theorem nextIs_iff {o : Result} {p : State → Bool} : nextIs o p = true ↔ ∃ t, o = .next t ∧ p t = true := by
  cases o <;> simp [nextIs]

/-- Whether an outcome is the quiescent stop. -/
def isQuiescent (o : Result) : Bool :=
  match o with
  | .next _ => false
  | .fault r => r == .quiescent
  | .refused _ => false

/-- The smallest admissible configuration, one pixel and two slots of gap, with its wait's bound. -/
def tiny (bound : Option Nat) : Config :=
  { n := 1, r := 2, pwOne := 3, pwZero := 1, sysclkHz := 4000000, hasGetter := true, waitBound := bound, pin := 0 }

/-- A block after INIT whose response has been taken, in a configuration. -/
def idleOf (c : Config) : State := configure (State.resetOf c fun _ => 0)

/-- A block in WAIT with nothing transferred yet, in a configuration. -/
def waitOf (c : Config) : State :=
  let s := idleOf c
  { s with
    phase := .wait, buf := enc c s.fs, engCnt := c.len, engCfg := { s.engCfg with en := true },
    tmrCtrl := { s.tmrCtrl with en := true } }

/-- The example block after INIT. -/
abbrev idle : State := idleOf Config.ex

/-- The example block in WAIT. -/
abbrev waiting : State := waitOf Config.ex

/-- The three pixels of S3. -/
def s3 : List Color := [⟨255, 0, 0⟩, ⟨0, 255, 0⟩, ⟨0, 0, 255⟩]

/-- The pulse buffer of T-ENC-5. -/
def encS3 : List Elem :=
  List.replicate 8 19 ++ List.replicate 8 38 ++ List.replicate 8 19 ++
  List.replicate 8 38 ++ List.replicate 8 19 ++ List.replicate 8 19 ++
  List.replicate 16 19 ++ List.replicate 8 38 ++ List.replicate 50 0

/-- The engine's start of T-AG-6 with a remaining count. -/
def serving (cnt : Nat) : State := { waiting with fs := s3, buf := encS3, engCnt := cnt, reqPending := true }

/-! ## Configurations and well-formedness -/

theorem test_example_is_admissible : Config.ex.Admissible ∧ Config.ex.period = 60 ∧ Config.ex.len = 122 := by decide +kernel

theorem test_tiny_is_admissible : (tiny none).Admissible ∧ (tiny (some 3)).Admissible := by decide +kernel

/-- Configurations that break one constraint of R7 or R6 each. -/
theorem test_inadmissible_configurations : ∀ c ∈ [
    { Config.ex with n := 0 }, { Config.ex with n := 65537 }, { Config.ex with r := 1 },
    { Config.ex with sysclkHz := 48000001 }, { Config.ex with pwZero := 0 }, { Config.ex with pwZero := 38 },
    { Config.ex with pwOne := 60 }, { Config.ex with sysclkHz := 800000 * 65536 }, { Config.ex with n := 2729 },
    { Config.ex with waitBound := some 0 }], ¬ Config.Admissible c := by decide +kernel

/-- The longest strip that CNT_MAX admits with R = 50. -/
theorem test_longest_strip : Config.Admissible { Config.ex with n := 2728 } := by decide +kernel

/-- GET_PIXEL is ill-formed without a getter (R105). -/
theorem test_ill_formed_getter :
    Instr.wellFormed { Config.ex with hasGetter := false } (.getPixel 0) = false ∧
    Instr.wellFormed Config.ex (.getPixel 0) = true := by decide +kernel

/-! ## Decoding, from words written out by hand -/

/-- T-DEC-2: `00000001` in bits 63:56, every other bit 0. -/
theorem test_decode_init : decodeCommand false 0x0100000000000000#64 = .ok .init := by decide +kernel

/-- T-DEC-4 and T-DEC-5. -/
theorem test_decode_set_pixel :
    decodeCommand false 0x0200000000FF0000#64 = .ok (.setPixel 0 ⟨255, 0, 0⟩) ∧
    decodeCommand false 0x0200FFFF00FFFFFF#64 = .ok (.setPixel 65535 ⟨255, 255, 255⟩) := by decide +kernel

/-- T-DEC-8. -/
theorem test_decode_set_pixel_channels :
    decodeCommand false 0x030000010000FF00#64 = .ok (.setPixelChannels 1 0 255 0) := by decide +kernel

/-- T-DEC-9. -/
theorem test_decode_fill : decodeCommand false 0x0400000000123456#64 = .ok (.fill ⟨0x12, 0x34, 0x56⟩) := by decide +kernel

/-- T-DEC-11. -/
theorem test_decode_transmit : decodeCommand false 0x0500000000000000#64 = .ok .transmit := by decide +kernel

/-- T-DEC-13 and T-DEC-14. -/
theorem test_decode_get_pixel :
    decodeCommand true 0x0600000200000000#64 = .ok (.getPixel 2) ∧
    decodeCommand false 0x0600000200000000#64 = .error .noGetter := by decide +kernel

/-- T-DEC-1, 3, 6, 7, 10, 12, 15, 16 and 17. -/
theorem test_decode_illegal :
    [0x0000000000000000#64, 0x0700000000000000#64, 0xFF00000000000000#64].map (decodeCommand true) =
      List.replicate 3 (.error .reservedOpcode) ∧
    [0x0100000000000001#64, 0x0201000000000000#64, 0x0200000001000000#64, 0x0400000100123456#64, 0x0500000000000100#64,
      0x0600000000000001#64].map (decodeCommand true) = List.replicate 6 (.error .reservedField) := by decide +kernel

/-- The phase codes of R21. -/
theorem test_decode_phases :
    [0x1#4, 0x2#4, 0x3#4, 0x4#4, 0x5#4, 0x6#4, 0x7#4, 0x8#4, 0x9#4].map decodePhase =
      [.ok .encode, .ok .engDisable, .ok .engLoad, .ok .engEnable, .ok .tmrEnable, .ok .wait, .ok .clearTc, .ok .tmrDisable,
        .ok .abort] ∧
    decodePhase 0x0#4 = .error .idlePhase ∧ decodePhase 0xA#4 = .error .reservedPhase ∧
    decodePhase 0xF#4 = .error .reservedPhase := by decide +kernel

/-- The event identifiers of R89. -/
theorem test_decode_events : decodeEvent 0#1 = .timerPeriod ∧ decodeEvent 1#1 = .engineService := by decide +kernel

/-- P2's words, assembled from P2's lines (R90). -/
theorem test_assemble :
    AsmLine.word (.setPixel 2 0 0 255) = some 0x02000002000000FF#64 ∧
    AsmLine.word (.setPixelChannels 1 0 255 0) = some 0x030000010000FF00#64 ∧
    AsmLine.word (.getPixel 2) = some 0x0600000200000000#64 ∧
    AsmLine.word (.setPixel 65536 0 0 0) = none ∧ AsmLine.word (.fill 0 256 0) = none := by decide +kernel

/-- The host's numbering: a whole command word, a phase code in a byte, an event bit. -/
theorem test_table_words :
    decodeTableWord 64 0x0200000000FF0000 = some (.setPixel 0 ⟨255, 0, 0⟩) ∧ decodeTableWord 8 6 = some .wait ∧
    decodeTableWord 4 9 = some .abort ∧ decodeTableWord 1 1 = some .engineService ∧
    decodeTableWord 1 0 = some .timerPeriod ∧ decodeTableWord 8 10 = none := by decide +kernel

/-! ## Fetching: the word placed is the instruction that runs first -/

theorem test_fetch_command :
    nextIs (step (State.reset.withFetchWord 64 0x0100000000000000)) (fun t => t.initDone && t.resp == some 0x01000000#32) =
      true := by decide +kernel

theorem test_fetch_phase :
    nextIs (step (State.reset.withFetchWord 8 3)) (fun t => t.phase == .engEnable && t.engCnt == 122) = true := by
  decide +kernel

theorem test_fetch_event :
    nextIs (step ({ waiting with reqPending := true }.withFetchWord 1 1)) (fun t => !t.reqPending && t.engCnt == 121) = true := by
  decide +kernel

/-! ## The encoder -/

/-- T-ENC-1 to T-ENC-4 and T-ENC-6 to T-ENC-9: the packed words. -/
theorem test_pack :
    [(⟨0, 0, 0⟩ : Color), ⟨255, 255, 255⟩, ⟨255, 0, 0⟩, ⟨0, 0, 1⟩, ⟨0x12, 0x34, 0x56⟩, ⟨0x80, 0, 0⟩, ⟨0, 1, 0⟩, ⟨0, 0x80, 0⟩].map
      pack24 = [0x000000#24, 0xFFFFFF#24, 0x00FF00#24, 0x000001#24, 0x341256#24, 0x008000#24, 0x010000#24, 0x800000#24] := by
  decide +kernel

/-- T-ENC-6. -/
theorem test_pixel_pulses : pixelPulses Config.ex ⟨0x12, 0x34, 0x56⟩ =
    [19, 19, 38, 38, 19, 38, 19, 19, 19, 19, 19, 38, 19, 19, 38, 19, 19, 38, 19, 38, 19, 38, 38, 19] := by decide +kernel

/-- T-ENC-5. -/
theorem test_encode_frame : enc Config.ex s3 = encS3 := by decide +kernel

/-- T-ENC-10. -/
theorem test_decode_frame : dec Config.ex encS3 = s3 := by decide +kernel

/-- T-ENC-11. -/
theorem test_black_frame :
    enc Config.ex (List.replicate 3 ⟨0, 0, 0⟩) = List.replicate 72 19 ++ List.replicate 50 0 := by decide +kernel

/-! ## INIT -/

/-- T-INIT-1. -/
theorem test_init : nextIs (exec .init State.reset) (fun t =>
    t.initDone && pinCfgWord t == 0x00000001#32 && t.tmrPeriod == 60 && t.tmrCmp == 0 && tmrCtrlWord t.tmrCtrl == 0x6#32 &&
    engCfgWord t.engCfg == 0x190#32 && t.engCnt == 0 && engFlagWord t == 0 && t.engSrc == .buf && t.engDst == .tmrCmp &&
    t.phase == .idle && t.resp == some 0x01000000#32) = true := by decide +kernel

/-- T-INIT-2. -/
theorem test_init_twice : nextIs (exec .init idle) (fun t =>
    t.blkFault == 0x4#32 && t.faultCmd == 0x0100000000000000#64 && t.resp == none && t.initDone) = true := by decide +kernel

/-! ## The Frame Store -/

/-- T-FS-1 and T-FS-2, the last pixel. -/
theorem test_set_pixel :
    nextIs (exec (.setPixel 1 ⟨10, 20, 30⟩) idle) (fun t =>
      t.fs == [⟨0, 0, 0⟩, ⟨10, 20, 30⟩, ⟨0, 0, 0⟩] && t.resp == some 0x01000000#32) = true ∧
    nextIs (exec (.setPixel 2 ⟨255, 255, 255⟩) idle) (fun t => t.fs == [⟨0, 0, 0⟩, ⟨0, 0, 0⟩, ⟨255, 255, 255⟩]) = true := by
  decide +kernel

/-- T-FS-3, T-FS-4 and T-FLT-10: an index out of range is ignored. -/
theorem test_set_pixel_out_of_range :
    nextIs (exec (.setPixel 3 ⟨255, 0, 0⟩) idle) (fun t =>
      t.fs == idle.fs && t.blkFault == 0 && t.faultCmd == 0 && t.resp == some 0x01000000#32) = true ∧
    nextIs (exec (.setPixel 65535 ⟨1, 2, 3⟩) idle) (fun t => t.fs == idle.fs && t.blkFault == 0) = true := by decide +kernel

/-- T-FS-7 and T-FS-10. -/
theorem test_set_pixel_channels :
    nextIs (exec (.setPixelChannels 0 1 2 3) idle) (fun t => t.fs == [⟨1, 2, 3⟩, ⟨0, 0, 0⟩, ⟨0, 0, 0⟩]) = true ∧
    nextIs (exec (.setPixelChannels 3 9 9 9) idle) (fun t => t.fs == idle.fs && t.resp == some 0x01000000#32) = true := by
  decide +kernel

/-- T-FS-5. -/
theorem test_fill : nextIs (exec (.fill ⟨7, 8, 9⟩) idle) (fun t =>
    t.fs == List.replicate 3 ⟨7, 8, 9⟩ && t.resp == some 0x01000000#32) = true := by decide +kernel

/-- T-FS-1's read. -/
theorem test_get_pixel : nextIs (exec (.getPixel 1) { idle with fs := [⟨0, 0, 0⟩, ⟨10, 20, 30⟩, ⟨0, 0, 0⟩] }) (fun t =>
    t.resp == some 0x020A141E#32) = true := by decide +kernel

/-! ## TRANSMIT and the controller's steps -/

/-- T-TX's start; and the poll counter cleared under a bound (R142). -/
theorem test_transmit :
    nextIs (exec .transmit idle) (fun t => t.phase == .encode && t.resp == none) = true ∧
    nextIs (exec .transmit { idleOf (tiny (some 3)) with polls := 3 }) (fun t => t.polls == 0) = true := by decide +kernel

/-- T-TX-1. -/
theorem test_encode : nextIs (exec .encode { idle with fs := s3, phase := .encode }) (fun t =>
    t.buf == encS3 && t.phase == .engDisable) = true := by decide +kernel

/-- T-TX-2 and T-TX-10. -/
theorem test_eng_disable :
    nextIs (exec .engDisable { idle with phase := .engDisable }) (fun t =>
      engCfgWord t.engCfg == 0x190#32 && t.phase == .engLoad) = true ∧
    nextIs (exec .engDisable { waiting with phase := .engDisable }) (fun t => engCfgWord t.engCfg == 0x190#32) = true := by
  decide +kernel

/-- T-TX-3. -/
theorem test_eng_load : nextIs (exec .engLoad { idle with phase := .engLoad }) (fun t =>
    t.engCnt == 122 && t.phase == .engEnable) = true := by decide +kernel

/-- T-TX-4. -/
theorem test_eng_enable : nextIs (exec .engEnable { idle with phase := .engEnable }) (fun t =>
    engCfgWord t.engCfg == 0x191#32 && t.phase == .tmrEnable) = true := by decide +kernel

/-- T-TX-5. -/
theorem test_tmr_enable : nextIs (exec .tmrEnable { idle with phase := .tmrEnable }) (fun t =>
    tmrCtrlWord t.tmrCtrl == 0x7#32 && t.phase == .wait) = true := by decide +kernel

/-- T-TX-6 (the hold) and T-TX-7. -/
theorem test_wait :
    nextIs (exec .wait waiting) (fun t => t == waiting) = true ∧
    nextIs (exec .wait { waiting with tc := true }) (fun t => t.phase == .clearTc) = true := by decide +kernel

/-- T-TO-1, T-TO-3 and T-TO-5. -/
theorem test_bounded_wait :
    nextIs (exec .wait (waitOf (tiny (some 3)))) (fun t => t.polls == 1 && t.phase == .wait) = true ∧
    nextIs (exec .wait { waitOf (tiny (some 3)) with polls := 2 }) (fun t => t.polls == 3 && t.phase == .abort) = true ∧
    nextIs (exec .wait { waitOf (tiny (some 3)) with polls := 2, tc := true }) (fun t =>
      t.polls == 2 && t.phase == .clearTc) = true := by decide +kernel

/-- T-TX-8. -/
theorem test_clear_tc : nextIs (exec .clearTc { waiting with tc := true, phase := .clearTc }) (fun t =>
    !t.tc && t.phase == .tmrDisable) = true := by decide +kernel

/-- T-TX-9. -/
theorem test_tmr_disable : nextIs (exec .tmrDisable { waiting with engCnt := 0, phase := .tmrDisable }) (fun t =>
    tmrCtrlWord t.tmrCtrl == 0x6#32 && t.status == .ok && t.phase == .idle && t.resp == some 0x03000000#32 &&
    engCfgWord t.engCfg == 0x191#32 && t.engCnt == 0) = true := by decide +kernel

/-- T-TO-4. -/
theorem test_abort : nextIs (exec .abort { waiting with tmrCmp := 38, tc := true, phase := .abort }) (fun t =>
    tmrCtrlWord t.tmrCtrl == 0x6#32 && engCfgWord t.engCfg == 0x190#32 && t.engCnt == 0 && !t.tc && t.tmrCmp == 0 &&
    t.status == .timedOut && t.phase == .idle && t.resp == some 0x03000001#32 && t.emitted == []) = true := by decide +kernel

/-! ## The timer and the engine -/

/-- T-AG-1, T-AG-2 and T-AG-3. -/
theorem test_timer_period :
    nextIs (exec .timerPeriod { waiting with tmrCmp := 38 }) (fun t => t.periods == [38] && t.reqPending) = true ∧
    nextIs (exec .timerPeriod { waiting with reqPending := true }) (fun t => t.periods == []) = true ∧
    nextIs (exec .timerPeriod idle) (fun t => t == idle) = true := by decide +kernel

/-- T-AG-6, T-AG-7, T-AG-8 and T-AG-9. -/
theorem test_engine_service :
    nextIs (exec .engineService (serving 122)) (fun t => t.tmrCmp == 19 && t.emitted == [19] && t.engCnt == 121 && !t.tc) = true ∧
    nextIs (exec .engineService (serving 58)) (fun t => t.tmrCmp == 38 && t.engCnt == 57) = true ∧
    nextIs (exec .engineService (serving 50)) (fun t => t.tmrCmp == 0 && t.engCnt == 49) = true ∧
    nextIs (exec .engineService (serving 1)) (fun t => t.emitted == [0] && t.engCnt == 0 && t.tc && !t.reqPending) = true := by
  decide +kernel

/-- T-AG-4 and T-AG-5: a dropped request. -/
theorem test_engine_drops :
    nextIs (exec .engineService { idle with reqPending := true, engCnt := 122 }) (fun t =>
      t == { idle with engCnt := 122 }) = true ∧
    nextIs (exec .engineService (serving 0)) (fun t => t == { serving 0 with reqPending := false }) = true := by decide +kernel

/-- T-AG-10 and R201: nothing is enabled once a fault is recorded. -/
theorem test_quiescent : ∀ i ∈ [Instr.init, .fill ⟨0, 0, 0⟩, .wait, .timerPeriod, .engineService],
    isQuiescent (exec i { serving 122 with blkFault := 1 }) = true := by decide +kernel

/-! ## Faults, and the registers as read -/

/-- T-FLT-1 to T-FLT-9: the state, the word presented, and the fault recorded. -/
theorem test_faults : ∀ x ∈ [
    (State.reset, 0x0200000000FF0000#64, 0x02#32), (State.reset, 0x0500000000000000#64, 0x02#32),
    (State.reset, 0x0000000000000000#64, 0x01#32), (idle, 0x0100000000000000#64, 0x04#32),
    (waiting, 0x0400000000000000#64, 0x08#32), (waiting, 0x0100000000000000#64, 0x08#32),
    (waiting, 0x0900000000000000#64, 0x01#32), (idle, 0x0600000300000000#64, 0x10#32),
    (idleOf { Config.ex with hasGetter := false }, 0x0600000000000000#64, 0x01#32)],
    nextIs (step { x.1 with cmdIn := some x.2.1 }) (fun t =>
      t == { x.1 with blkFault := x.2.2, faultCmd := x.2.1, cmdIn := none }) = true := by decide +kernel

/-- R45 and R37: register numbers, an unused number, and POLLS where the wait is unbounded. -/
theorem test_registers :
    readNumber waiting 0x00 = some (.word32 0x61#32) ∧ readNumber waiting 0x11 = some (.word16 122) ∧
    readNumber waiting 0x20 = some (.word32 7) ∧ readNumber waiting 0x12 = some (.src .buf) ∧
    readNumber waiting 0x02 = none ∧ readNumber waiting 0x04 = none := by decide +kernel

/-! ## Witnesses: each obligation's hypotheses can be met -/

theorem witness_DecodeOfEncodeIsIdentity :
    Instr.wellFormed Config.ex (.getPixel 65535) = true ∧ Instr.wellFormed Config.ex .abort = true ∧
    Instr.wellFormed Config.ex .engineService = true := by decide +kernel

theorem witness_EncodeOfDecodeIsIdentity :
    decode false (.command 0x0200FFFF00FFFFFF#64) = .ok (.setPixel 65535 ⟨255, 255, 255⟩) ∧
    decode false (.phase 9#4) = .ok .abort ∧ decode false (.event 1#1) = .ok .engineService := by decide +kernel

/-- Both sides of each equivalence, at a word with every operand bit set. -/
theorem witness_WordSpellsCommandByMatchAndMask :
    0x0100000000000000#64 &&& 0xFFFFFFFFFFFFFFFF#64 = 0x0100000000000000#64 ∧
    0x0200FFFF00FFFFFF#64 &&& 0xFFFF0000FF000000#64 = 0x0200000000000000#64 ∧
    0x0300FFFF00FFFFFF#64 &&& 0xFFFF0000FF000000#64 = 0x0300000000000000#64 ∧
    0x0400000000FFFFFF#64 &&& 0xFFFFFFFFFF000000#64 = 0x0400000000000000#64 ∧
    0x0500000000000000#64 &&& 0xFFFFFFFFFFFFFFFF#64 = 0x0500000000000000#64 ∧
    0x0600FFFF00000000#64 &&& 0xFFFF0000FFFFFFFF#64 = 0x0600000000000000#64 ∧
    decodeCommand true 0x0300FFFF00FFFFFF#64 = .ok (.setPixelChannels 65535 255 255 255) ∧
    decodeCommand true 0x0400000000FFFFFF#64 = .ok (.fill ⟨255, 255, 255⟩) := by decide +kernel

theorem witness_IllegalWordsAreRejected :
    (let s : State := { idle with cmdIn := some 0x0700000000000000#64 }
     s.Live ∧ s.cmdIn = some 0x0700000000000000#64 ∧
      decodeCommand s.cfg.hasGetter 0x0700000000000000#64 = .error .reservedOpcode) ∧
    decodeCommand false 0x0600000000000000#64 = .error .noGetter ∧
    decodeCommand true 0x0200000001000000#64 = .error .reservedField := by decide +kernel

theorem witness_PhaseCodesNameTheSteps : 0xA ≤ (0xA#4).toNat ∧ 0xA ≤ (0xF#4).toNat := by decide +kernel

theorem witness_AssemblerRefusesLiteralsOutOfRange :
    (65535 ≤ 65535 ∧ 255 ≤ 255) ∧ AsmLine.word (.setPixel 65535 255 255 255) = some 0x0200FFFF00FFFFFF#64 ∧
    AsmLine.word (.setPixel 65536 255 255 255) = none ∧ AsmLine.word (.setPixel 65535 256 255 255) = none ∧
    AsmLine.word (.fill 255 255 255) = some 0x0400000000FFFFFF#64 ∧ AsmLine.word (.fill 255 255 256) = none ∧
    AsmLine.word (.getPixel 65535) = some 0x0600FFFF00000000#64 ∧ AsmLine.word (.getPixel 65536) = none := by decide +kernel

theorem witness_StepRunsThePresentedWord :
    let s : State := { idle with cmdIn := some 0x0500000000000000#64 }
    s.Live ∧ s.cmdIn = some 0x0500000000000000#64 ∧
      decodeCommand s.cfg.hasGetter 0x0500000000000000#64 = .ok .transmit := by decide +kernel

theorem witness_StepRunsTheAgentWhoseTurnItIs : ∀ a ∈ [Agent.controller, .timer, .engine],
    let s : State := { waiting with sched := [a] }
    s.Live ∧ s.cmdIn = none ∧ nextAgent s = a ∧ Instr.wait.phase? = some s.phase ∧
      nextAgent { idle with sched := [a] } = a ∧ idle.phase = .idle := by decide +kernel

theorem witness_IssuersPresentAndTake :
    (let s : State := { idle with sched := [.host], hostProg := [0x0500000000000000#64] }
     s.Live ∧ s.cmdIn = none ∧ nextAgent s = .host ∧ s.resp = none ∧ s.hostAwait = false) ∧
    nextAgent { idle with sched := [.host], resp := some 0x01000000#32, hostAwait := true } = .host ∧
    (let s : State := { idle with sched := [.second], second := [0x0400000000000000#64] }
     s.Live ∧ s.cmdIn = none ∧ nextAgent s = .second) := by decide +kernel

/-- Each branch of the chain: illegal, busy, double, uninitialized, out of range at `N`, and passed at `N - 1`. -/
theorem witness_PresentedWordIsCheckedInOrder :
    (idle.Live ∧ waiting.Live ∧ State.reset.Live) ∧
    decodeCommand true 0x0900000000000000#64 = .error .reservedOpcode ∧ waiting.phase ≠ .idle ∧ idle.phase = .idle ∧
    idle.initDone = true ∧ State.reset.initDone = false ∧ idle.cfg.n ≤ (3#16).toNat ∧ ¬ idle.cfg.n ≤ (2#16).toNat ∧
    idle.memWf = true := by decide +kernel

theorem witness_FaultedBlockIsQuiescent :
    ¬ { idle with blkFault := 0x10 }.Live ∧ isQuiescent (step { idle with blkFault := 0x10 }) = true := by decide +kernel

theorem witness_FaultRecordHoldsThePresentedWord :
    nextIs (step { idle with cmdIn := some 0#64 }) (fun t => t.blkFault == 1) = true ∧
    nextIs (step { idle with cmdIn := some 0x0500000000000000#64 }) (fun t => t.blkFault == 0) = true := by decide +kernel

theorem witness_OnlyResetClearsFaultsAndInitDone :
    nextIs (Sys2Proof.core.run 2 { idle with cmdIn := some 0x0500000000000000#64, sched := [.controller] }) (fun t =>
      idle.initDone && t.initDone) = true ∧
    Sys2Proof.core.run 0 { idle with blkFault := 2 } = .next { idle with blkFault := 2 } ∧
    Instr.transmit.isCommand = true ∧ Instr.transmit.wellFormed Config.ex = true ∧ Instr.transmit ≠ .init :=
  ⟨by decide +kernel, rfl, by decide +kernel, by decide +kernel, by decide +kernel⟩

theorem witness_InitConfiguresTheBlock :
    State.reset.Fresh ∧ (idle.Live ∧ idle.phase = .idle ∧ idle.initDone = true) ∧
    (0x0100000000000001#64).extractLsb' 56 8 = 0x01#8 ∧ 0x0100000000000001#64 ≠ 0x0100000000000000#64 := by decide +kernel

theorem witness_ResetLeavesTheValuesOfTheTable :
    2 < Config.ex.n ∧ Config.ex.n * 24 ≤ 72 ∧ 72 < Config.ex.len ∧ Config.ex.n * 24 ≤ 121 ∧ 121 < Config.ex.len ∧
    71 < Config.ex.n * 24 := by decide +kernel

theorem witness_SetPixelWritesOrIgnores :
    idle.Ready ∧ (2#16).toNat < idle.cfg.n ∧ idle.cfg.n ≤ (3#16).toNat ∧ idle.cfg.n ≤ (65535#16).toNat ∧
    nextIs (exec (.setPixel 3 ⟨1, 2, 3⟩) waiting) (fun t => t.blkFault == 0x08#32) = true := by decide +kernel

theorem witness_SetPixelChannelsWritesOrIgnores :
    idle.Ready ∧ (2#16).toNat < idle.cfg.n ∧ idle.cfg.n ≤ (3#16).toNat ∧
    nextIs (exec (.setPixelChannels 3 1 2 3) State.reset) (fun t => t.blkFault == 0x02#32) = true := by decide +kernel

theorem witness_FillSetsEveryPixel :
    idle.Ready ∧ (let s := idleOf (tiny none); s.Ready ∧ s.cfg.n = 1 ∧ s.fs.length = 1) ∧
    (0x0400000100123456#64).extractLsb' 56 8 = 0x04#8 ∧ idxOf 0x0400000100123456#64 ≠ 0#16 ∧
    nextIs (exec (.fill ⟨1, 2, 3⟩) waiting) (fun t => t.blkFault == 0x08#32) = true := by decide +kernel

theorem witness_GetPixelReadsOrFaults :
    (idle.Ready ∧ idle.memWf = true ∧ idle.cfg.hasGetter = true ∧ (2#16).toNat < idle.cfg.n ∧ idle.cfg.n ≤ (3#16).toNat) ∧
    (let s := idleOf { Config.ex with hasGetter := false }; s.Live ∧ s.cfg.hasGetter = false) ∧
    (0x0600000300000000#64).extractLsb' 56 8 = 0x06#8 ∧ Instr.wellFormed waiting.cfg (.getPixel 3) = true ∧
    waiting.Live ∧ waiting.phase ≠ .idle ∧ State.reset.Fresh := by decide +kernel

theorem witness_FrameStoreCommandsTouchOnlyTheFrameStore :
    nextIs (exec (.setPixel 2 ⟨1, 2, 3⟩) idle) (fun t => decide t.Live) = true ∧
    nextIs (exec (.setPixelChannels 2 1 2 3) idle) (fun t => decide t.Live) = true ∧
    nextIs (exec (.fill ⟨1, 2, 3⟩) idle) (fun t => decide t.Live) = true ∧
    nextIs (exec (.getPixel 2) idle) (fun t => decide t.Live) = true := by decide +kernel

theorem witness_FrameStoreReadsBackWhatWasWritten :
    idle.Ready ∧ idle.memWf = true ∧ idle.cfg.hasGetter = true ∧ (2#16).toNat < idle.cfg.n ∧ idle.cfg.n ≤ (3#16).toNat ∧
    1 ≠ (2#16).toNat := by decide +kernel

theorem witness_EncodedEntryIsThePulseOfItsBit :
    s3.length = Config.ex.n ∧ 71 < 24 * Config.ex.n ∧ s3[71 / 24]? = some ⟨0, 0, 255⟩ ∧ 49 < Config.ex.r := by decide +kernel

theorem witness_EncodedFrameHasItsShape : Config.ex.Admissible ∧ s3.length = Config.ex.n := by decide +kernel

theorem witness_DecodingAnEncodedFrameGivesItBack :
    Config.ex.Admissible ∧ s3.length = Config.ex.n ∧ idle.fs.length = Config.ex.n ∧
    enc Config.ex s3 = enc Config.ex (s3.map id) := by decide +kernel

theorem witness_TransmitStartsATransmission :
    idle.Ready ∧ (waiting.Live ∧ waiting.phase ≠ .idle) ∧ State.reset.Fresh ∧
    (0x0500000000000100#64).extractLsb' 56 8 = 0x05#8 ∧ 0x0500000000000100#64 ≠ 0x0500000000000000#64 := by decide +kernel

theorem witness_EncodeFillsTheBuffer :
    let s : State := { idle with phase := .encode }
    s.Live ∧ s.phase = .encode ∧ s.memWf = true ∧ nextIs (exec .encode s) (fun _ => true) = true ∧ 121 < s.cfg.len := by
  decide +kernel

theorem witness_WaitPollsTheCompletionFlag :
    (waiting.Live ∧ waiting.phase = .wait ∧ waiting.tc = false ∧ waiting.cfg.waitBound = none) ∧
    (let s : State := { waitOf (tiny (some 3)) with polls := 2 }
     s.Live ∧ s.phase = .wait ∧ s.tc = false ∧ s.cfg.waitBound = some 3 ∧ s.polls + 1 = 3) ∧
    { waiting with tc := true }.tc = true := by decide +kernel

theorem witness_ClearTcClearsTheFlag :
    let s : State := { waiting with phase := .clearTc }; s.Live ∧ s.phase = .clearTc := by decide +kernel

theorem witness_TmrDisableEndsTheTransmission :
    let s : State := { waiting with phase := .tmrDisable }; s.Live ∧ s.phase = .tmrDisable := by decide +kernel

theorem witness_AbortForcesEverythingOff :
    let s : State := { waiting with phase := .abort }; s.Live ∧ s.phase = .abort := by decide +kernel

/-- A step along an edge, and the two ways out of WAIT. -/
theorem witness_PhaseGraphIsAllTheTransitions :
    nextIs (exec .transmit idle) (fun t => t.phase != idle.phase) = true ∧
    nextIs (exec .wait { waiting with tc := true }) (fun t => t.phase == .clearTc) = true ∧
    nextIs (exec .wait (waitOf (tiny (some 1)))) (fun t => t.phase == .abort) = true ∧
    nextIs (step { waiting with sched := [.timer] }) (fun t => t.phase == .wait) = true := by decide +kernel

theorem witness_TransmissionCannotBeCancelled :
    nextIs (step { waiting with phase := .tmrDisable, sched := [.controller] }) (fun t => t.phase == .idle) = true ∧
    nextIs (step { waiting with phase := .abort, sched := [.controller] }) (fun t => t.phase == .idle) = true ∧
    waiting.phase ≠ .idle ∧ waiting.Live ∧ decodeCommand waiting.cfg.hasGetter 0x0400000000000000#64 = .ok (.fill ⟨0, 0, 0⟩) := by
  decide +kernel

theorem witness_FrameStoreIsFrozenInFlight : ∀ a ∈ [Agent.host, .second, .controller, .timer, .engine],
    nextIs (step { waiting with sched := [a] }) (fun t => decide t.Live) = true ∧ waiting.phase ≠ .idle := by decide +kernel

theorem witness_PeriodEventLogsAndRequests :
    (waiting.Live ∧ waiting.tmrCtrl.en = true ∧ waiting.reqPending = false) ∧ idle.tmrCtrl.en = false ∧
    (serving 122).reqPending = true := by decide +kernel

/-- The first and the last element, and both reasons to drop a request. -/
theorem witness_EngineServiceTransfersOrDrops :
    (∀ cnt ∈ [1, 122], let s := serving cnt
      s.Live ∧ s.reqPending = true ∧ s.engCfg.en = true ∧ 0 < s.engCnt ∧ s.engCnt ≤ s.cfg.len ∧ s.memWf = true) ∧
    (serving 0).engCnt = 0 ∧ idle.engCfg.en = false ∧ idle.reqPending = false := by decide +kernel

theorem witness_ObservationListsRecordTheLine :
    (let s : State := { waiting with sched := [.timer] }
     s.cmdIn = none ∧ nextAgent s = .timer ∧ s.tmrCtrl.en = true ∧ s.reqPending = false ∧
      nextIs (step s) (fun t => t.periods == [0]) = true) ∧
    (∀ cnt ∈ [1, 122], let s : State := { serving cnt with sched := [.engine] }
     s.cmdIn = none ∧ nextAgent s = .engine ∧ s.reqPending = true ∧ s.engCfg.en = true ∧ 0 < s.engCnt ∧
      nextIs (step s) (fun t => decide (t.engCnt < s.engCnt)) = true) ∧
    nextIs (step { serving 1 with sched := [.engine] }) (fun t => t.emitted == [0]) = true ∧
    nextIs (step { waiting with sched := [.controller] }) (fun t => t.emitted == []) = true := by decide +kernel

theorem witness_EveryFieldHasOnlyItsWriters :
    nextIs (exec .abort { serving 5 with phase := .abort, tmrCmp := 38, tc := true }) (fun t =>
      t.status != waiting.status && t.engCfg.en != waiting.engCfg.en && t.tmrCmp != 38 && t.phase != .abort &&
      t.resp != waiting.resp) = true := by decide +kernel

/-! Invariant states. -/

/-- The initialized idle block, whatever word is presented, whatever moves are next, with or without a stale request. -/
theorem idle_inv (bound : Option Nat) (h : bound = none ∨ bound = some 3) (cmd : Option CmdWord) (sched : List Agent)
    (pending : Bool := false) :
    { idleOf (tiny bound) with cmdIn := cmd, sched := sched, reqPending := pending }.Inv := by
  have configured : (idleOf (tiny bound)).Configured := by rcases h with rfl | rfl <;> decide +kernel
  have admissible : (tiny bound).Admissible := by rcases h with rfl | rfl <;> decide +kernel
  have memory : (idleOf (tiny bound)).memWf = true := by rcases h with rfl | rfl <;> decide +kernel
  have poll : (idleOf (tiny bound)).PollFacts := by
    rcases h with rfl | rfl
    · exact ⟨rfl, rfl, nofun⟩
    · exact ⟨Nat.zero_le 3, nofun, fun h => absurd rfl h⟩
  exact ⟨admissible, memory, rfl, .inl ⟨rfl, rfl⟩, nofun, fun _ => configured, poll, ⟨rfl, rfl, rfl, rfl⟩⟩

theorem wait_inv (sched : List Agent) : { waitOf (tiny (some 3)) with sched := sched }.Inv := by
  have configured : (waitOf (tiny (some 3))).Configured := by decide +kernel
  have admissible : (tiny (some 3)).Admissible := by decide +kernel
  have memory : (waitOf (tiny (some 3))).memWf = true := by decide +kernel
  have tail : (waitOf (tiny (some 3))).buf.drop 24 = List.replicate 2 0 := by decide +kernel
  have transferring : (waitOf (tiny (some 3))).Transferring := by decide +kernel
  exact ⟨admissible, memory, tail, .inl ⟨rfl, rfl⟩, nofun, fun _ => configured,
    ⟨Nat.zero_le 3, nofun, fun _ _ => Nat.zero_lt_succ 2⟩, ⟨rfl, rfl, rfl, transferring⟩⟩

theorem witness_ArmingStepsWriteOneFieldEach :
    (∀ p ∈ [Phase.engDisable, .engLoad, .engEnable, .tmrEnable], let s : State := { idle with phase := p }
      s.Live ∧ s.phase = p) ∧
    { idleOf (tiny none) with phase := .engLoad, buf := enc (tiny none) [⟨0, 0, 0⟩] }.Inv :=
  ⟨by decide +kernel, by decide +kernel, by decide +kernel, by decide +kernel, .inl ⟨rfl, rfl⟩, nofun, fun _ => by decide +kernel, ⟨rfl, rfl, nofun⟩,
    ⟨by decide +kernel, rfl, rfl⟩⟩

/-- The lockstep order of P1 for the smallest configuration: 61 steps. -/
def lockstep (bound : Option Nat) : State :=
  { idleOf (tiny bound) with
    cmdIn := some 0x0500000000000000#64
    sched := List.replicate 5 .controller ++ (List.replicate (tiny bound).len [Agent.timer, Agent.engine]).flatten ++
      List.replicate 3 .controller ++ [.host] }

theorem witness_LockstepTransmissionCompletes :
    (lockstep none).Inv ∧ (lockstep none).Ready ∧ (lockstep none).cmdIn = some 0x0500000000000000#64 ∧
    (lockstep none).reqPending = false ∧ (lockstep none).sched = List.replicate 5 .controller ++
      (List.replicate (lockstep none).cfg.len [Agent.timer, Agent.engine]).flatten ++ List.replicate 3 .controller ++ [.host] :=
  ⟨idle_inv none (.inl rfl) _ _, by decide +kernel, rfl, rfl, rfl⟩

theorem witness_TransmissionDeliversTheFrame : ∃ t : State,
    (lockstep none).Inv ∧ (lockstep none).Ready ∧ (lockstep none).cmdIn = some 0x0500000000000000#64 ∧
    (∀ k (u : State), 0 < k → k < 61 → Sys2Proof.core.run k (lockstep none) = .next u → u.phase ≠ .idle) ∧
    Sys2Proof.core.run 61 (lockstep none) = .next t ∧ t.phase = .idle ∧ t.status = .ok := by
  have inFlight : ∀ k < 61, 0 < k → nextIs (Sys2Proof.core.run k (lockstep none)) (fun u => u.phase != .idle) = true := by
    decide +kernel
  have ends : nextIs (Sys2Proof.core.run 61 (lockstep none)) (fun t => t.phase == .idle && t.status == .ok) = true := by
    decide +kernel
  obtain ⟨t, ht, hp⟩ := nextIs_iff.1 ends
  refine ⟨t, idle_inv none (.inl rfl) _ _, by decide +kernel, rfl, ?_, ht, by simp_all, by simp_all⟩
  intro k u h0 hk hu
  obtain ⟨v, hv, hp⟩ := nextIs_iff.1 (inFlight k hk h0)
  cases hu.symm.trans hv
  simpa using hp

/-- The same with a stale request that the engine serves after ENG_ENABLE and before any period event: 60 steps. -/
def stale : State :=
  { idleOf (tiny none) with
    cmdIn := some 0x0500000000000000#64, reqPending := true
    sched := List.replicate 4 .controller ++ [.engine, .controller] ++ (List.replicate 25 [Agent.timer, Agent.engine]).flatten ++
      List.replicate 3 .controller }

/-- The case `a = 0`: after 6 steps the first entry is transferred and no period has been logged. -/
theorem witness_TransmissionDeliversTheFrame_stale : ∃ t u : State,
    stale.Inv ∧ stale.Ready ∧ stale.cmdIn = some 0x0500000000000000#64 ∧
    (∀ k (v : State), 0 < k → k < 60 → Sys2Proof.core.run k stale = .next v → v.phase ≠ .idle) ∧
    Sys2Proof.core.run 60 stale = .next t ∧ t.phase = .idle ∧ t.status = .ok ∧
    Sys2Proof.core.run 6 stale = .next u ∧ u.emitted = stale.emitted ++ (enc stale.cfg stale.fs).take 1 ∧
    u.periods = stale.periods := by
  have inFlight : ∀ k < 60, 0 < k → nextIs (Sys2Proof.core.run k stale) (fun u => u.phase != .idle) = true := by
    decide +kernel
  have ends : nextIs (Sys2Proof.core.run 60 stale) (fun t => t.phase == .idle && t.status == .ok) = true := by decide +kernel
  have early : nextIs (Sys2Proof.core.run 6 stale) (fun u =>
      u.emitted == stale.emitted ++ (enc stale.cfg stale.fs).take 1 && u.periods == stale.periods) = true := by decide +kernel
  obtain ⟨t, ht, hp⟩ := nextIs_iff.1 ends
  obtain ⟨u, hu, he⟩ := nextIs_iff.1 early
  simp only [Bool.and_eq_true, beq_iff_eq] at hp he
  refine ⟨t, u, idle_inv none (.inl rfl) _ _ true, by decide +kernel, rfl, ?_, ht, hp.1, hp.2, hu, he.1, he.2⟩
  intro k v h0 hk hv
  obtain ⟨w, hw, hne⟩ := nextIs_iff.1 (inFlight k hk h0)
  cases hv.symm.trans hw
  simpa using hne

theorem witness_BoundedWaitEndsInAbort :
    let s : State := { waitOf (tiny (some 3)) with sched := List.replicate 3 .controller ++ .controller :: [.host] }
    s.Inv ∧ s.Live ∧ s.cmdIn = none ∧ s.phase = .wait ∧ s.tc = false ∧ s.cfg.waitBound = some 3 ∧
      s.sched = List.replicate (3 - s.polls) .controller ++ .controller :: [.host] :=
  ⟨wait_inv _, by decide +kernel, rfl, rfl, rfl, rfl, rfl⟩

theorem witness_StalledEngineHoldsInWait :
    let s : State := { waiting with hostAwait := true, sched := [.controller, .timer, .host, .second] }
    s.Live ∧ s.phase = .wait ∧ s.tc = false ∧ s.cfg.waitBound = none ∧ s.cmdIn = none ∧ s.resp = none ∧
      s.hostAwait = true ∧ s.second = [] ∧ 4 ≤ s.sched.length ∧ Agent.engine ∉ s.sched.take 4 := by decide +kernel

theorem witness_EveryStepKeepsTheInvariant :
    { waitOf (tiny (some 3)) with sched := [.timer] }.Inv ∧
    nextIs (step { waitOf (tiny (some 3)) with sched := [.timer] }) (fun _ => true) = true :=
  ⟨wait_inv _, by decide +kernel⟩

theorem witness_ResetMeetsTheInvariant : (tiny (some 3)).Admissible ∧ Config.ex.Admissible := by decide +kernel

theorem witness_LiveBlockNeverStops :
    let s : State := { waitOf (tiny (some 3)) with sched := [.engine] }; s.Inv ∧ s.Live := ⟨wait_inv _, rfl⟩

theorem witness_LineFollowsThePeriods :
    (let s : State := { waitOf (tiny (some 3)) with sched := [] }; s.Inv ∧ s.pinMode = true ∧ s.tmrCtrl.en = true) ∧
    (let s : State := { idleOf (tiny none) with cmdIn := none, sched := [] }
     s.Inv ∧ s.pinMode = true ∧ s.tmrCtrl.en = false ∧ s.phase ≠ .tmrEnable) ∧
    4 < (tiny none).period ∧ (tiny none).Admissible ∧ State.reset.pinMode = false :=
  ⟨⟨wait_inv _, rfl, rfl⟩, ⟨idle_inv none (.inl rfl) _ _, rfl, rfl, nofun⟩, by decide +kernel, by decide +kernel, rfl⟩

theorem witness_RegisterWordsPackTheirFields :
    { waitOf (tiny (some 3)) with sched := [] }.Inv ∧ (waitOf (tiny (some 3))).cfg.waitBound.isSome = true :=
  ⟨wait_inv _, rfl⟩

/-! Reachable states. -/

/-- The block after a host's INIT, from reset. -/
theorem reachable_after_init (bound : Option Nat) (h : bound = none ∨ bound = some 3) : ∃ s : State,
    Reachable s ∧ s.Ready ∧ s.cfg = tiny bound := by
  have run : nextIs (Sys2Proof.core.run 2 (State.boot (tiny bound) (fun _ => 7) [0x0100000000000000#64] [] [.host]))
      (fun t => decide t.Ready && t.cfg == tiny bound) = true := by rcases h with rfl | rfl <;> decide +kernel
  obtain ⟨t, ht, hp⟩ := nextIs_iff.1 run
  simp only [Bool.and_eq_true, decide_eq_true_eq, beq_iff_eq] at hp
  exact ⟨t, ⟨_, _, _, _, _, _, by rcases h with rfl | rfl <;> decide, ht⟩, hp⟩

/-- The first and the last entry of the gap. -/
theorem witness_ReachableResetGapIsZero : ∃ s : State, Reachable s ∧ 24 * s.cfg.n ≤ 24 ∧ 25 < s.cfg.len := by
  obtain ⟨s, h, -, hc⟩ := reachable_after_init none (.inl rfl)
  exact ⟨s, h, by rw [hc]; decide, by rw [hc]; decide⟩

theorem witness_ReachableIdleBlockIsQuiet : ∃ s : State, Reachable s ∧ s.Ready := by
  obtain ⟨s, h, hr, -⟩ := reachable_after_init none (.inl rfl)
  exact ⟨s, h, hr⟩

theorem witness_BoundaryContractNeverChanges : ∃ s : State, Reachable s ∧ s.initDone = true := by
  obtain ⟨s, h, hr, -⟩ := reachable_after_init none (.inl rfl)
  exact ⟨s, h, hr.2.2⟩

theorem witness_ReachablePollsStayWithinTheBound :
    (∃ s : State, Reachable s ∧ s.cfg.waitBound = none) ∧ ∃ s : State, Reachable s ∧ s.cfg.waitBound = some 3 := by
  obtain ⟨s, h, -, hc⟩ := reachable_after_init none (.inl rfl)
  obtain ⟨s', h', -, hc'⟩ := reachable_after_init (some 3) (.inr rfl)
  exact ⟨⟨s, h, by rw [hc]; rfl⟩, s', h', by rw [hc']; rfl⟩

end Sys2Proof.Tests
end

section
/-!
SUPPORT. Every next state of exec as one inductive relation, so that a fact about all instructions is one case analysis;
the words that decode; and the inductions over steps and runs.
-/

namespace Sys2Proof

/-! ## A word that decodes is the encoding of what it decodes to (R92) -/

/-- A word whose two zero bytes are 0 is the word with its own fields (R81). -/
theorem cmdWord_of_fields {w : CmdWord} (h48 : w.extractLsb' 48 8 = 0#8) (h24 : w.extractLsb' 24 8 = 0#8) :
    cmdWord (opOf w) (idxOf w) (colorOf w) = w := by
  have hi (k : Nat) (hk : k < 8) : w.getLsbD (48 + k) = false := by
    simpa [hk] using congrArg (fun v => v.getLsbD k) h48
  have lo (k : Nat) (hk : k < 8) : w.getLsbD (24 + k) = false := by
    simpa [hk] using congrArg (fun v => v.getLsbD k) h24
  apply BitVec.eq_of_getLsbD_eq
  intro k hk
  rw [cmdWord_getLsbD]
  simp only [opOf, idxOf, colorOf, BitVec.getLsbD_extractLsb']
  split_ifs with k8 k16 k24 k32 k48 k56
  · simp [k8]
  · simp [show k - 8 < 8 by omega, show 8 + (k - 8) = k by omega]
  · simp [show k - 16 < 8 by omega, show 16 + (k - 16) = k by omega]
  · rw [← lo (k - 24) (by omega), show 24 + (k - 24) = k by omega]
  · simp [show k - 32 < 16 by omega, show 32 + (k - 32) = k by omega]
  · rw [← hi (k - 48) (by omega), show 48 + (k - 48) = k by omega]
  · simp [show k - 56 < 8 by omega, show 56 + (k - 56) = k by omega]

/-- A word that spells a row has the row's match in every field that the row's mask covers (R85). -/
theorem extractLsb'_of_spells {x : Cmd} {w : CmdWord} (h : x.spells w = true) {start len : Nat}
    (hm : x.mask.extractLsb' start len = BitVec.allOnes len) :
    w.extractLsb' start len = x.pat.extractLsb' start len := by
  rw [← beq_iff_eq.1 h, BitVec.extractLsb'_and, hm, BitVec.and_allOnes]

/-- The color field of a word that spells a row whose mask covers it. -/
theorem colorOf_of_spells {x : Cmd} {w : CmdWord} (h : x.spells w = true)
    (hr : x.mask.extractLsb' 16 8 = BitVec.allOnes 8) (hg : x.mask.extractLsb' 8 8 = BitVec.allOnes 8)
    (hb : x.mask.extractLsb' 0 8 = BitVec.allOnes 8) : colorOf w = colorOf x.pat := by
  simp only [colorOf, extractLsb'_of_spells h hr, extractLsb'_of_spells h hg, extractLsb'_of_spells h hb]

/-- A word that spells a row encodes the row's instruction with the word's operands. -/
theorem encode_build_of_spells {x : Cmd} {w : CmdWord} (h : x.spells w = true) : encode (x.build w) = .command w := by
  have hop : opOf w = x.opcode :=
    (extractLsb'_of_spells h (by cases x <;> rfl)).trans (by cases x <;> rfl)
  have h48 : w.extractLsb' 48 8 = 0#8 :=
    (extractLsb'_of_spells h (by cases x <;> rfl)).trans (by cases x <;> rfl)
  have h24 : w.extractLsb' 24 8 = 0#8 :=
    (extractLsb'_of_spells h (by cases x <;> rfl)).trans (by cases x <;> rfl)
  have hw : cmdWord x.opcode (idxOf w) (colorOf w) = w := hop ▸ cmdWord_of_fields h48 h24
  have hidx (hm : x.mask.extractLsb' 32 16 = BitVec.allOnes 16) : idxOf w = x.pat.extractLsb' 32 16 :=
    extractLsb'_of_spells h hm
  cases x with
  | setPixel => exact congrArg _ hw
  | setPixelChannels => exact congrArg _ hw
  | fill => rw [hidx rfl] at hw; exact congrArg _ hw
  | getPixel => rw [colorOf_of_spells h rfl rfl rfl] at hw; exact congrArg _ hw
  | init => rw [hidx rfl, colorOf_of_spells h rfl rfl rfl] at hw; exact congrArg _ hw
  | transmit => rw [hidx rfl, colorOf_of_spells h rfl rfl rfl] at hw; exact congrArg _ hw

/-- What decodes is the instruction of a row that the word spells. -/
theorem decodeCommand_ok {g : Bool} {w : CmdWord} {i : Instr} (h : decodeCommand g w = .ok i) :
    ∃ x : Cmd, x.spells w = true ∧ x.build w = i := by
  unfold decodeCommand at h
  split at h
  next x hx =>
    split at h
    · cases h
    · cases h; exact ⟨x, by simpa using List.find?_some hx, rfl⟩
  next => cases h

theorem encode_of_decodeCommand {g : Bool} {w : CmdWord} {i : Instr} (h : decodeCommand g w = .ok i) :
    encode i = .command w := by
  obtain ⟨x, hx, rfl⟩ := decodeCommand_ok h
  exact encode_build_of_spells hx

theorem commandWord_of_decodeCommand {g : Bool} {w : CmdWord} {i : Instr} (h : decodeCommand g w = .ok i) :
    commandWord i = w := by
  rw [commandWord, encode_of_decodeCommand h]

theorem isCommand_of_decodeCommand {g : Bool} {w : CmdWord} {i : Instr} (h : decodeCommand g w = .ok i) :
    i.isCommand = true := by
  obtain ⟨x, -, rfl⟩ := decodeCommand_ok h
  cases x <;> rfl

/-- A controller step is no command (R84, R21). -/
theorem isCommand_of_phase? {i : Instr} {p : Phase} (h : i.phase? = some p) : i.isCommand = false := by
  cases i with
  | init | setPixel | setPixelChannels | fill | transmit | getPixel => cases h
  | _ => rfl

theorem phase?_of_phaseInstr {i : Instr} {p : Phase} (h : phaseInstr p = .ok i) : i.phase? = some p := by
  cases p with
  | idle => cases h
  | _ => cases h; rfl

end Sys2Proof

namespace Sys2Proof.Machine

variable {i : Instr} {s t : State}

/-! ## Everything an instruction can do -/

/-- The next states of an instruction, with the condition under which each is reached: a recorded fault or the effect of a
command, the effect of a controller step in its phase, an agent's event, or a step that is not enabled. -/
inductive ExecNext (s : State) : Instr → State → Prop
  | hold {i : Instr} (hi : i.isCommand = false) : ExecNext s i s
  | fault {i : Instr} {code : FaultCode} (hi : i.isCommand = true) (hf : firstFault i s = some code) :
      ExecNext s i (raiseFault code (commandWord i) s)
  | init (hf : firstFault .init s = none) : ExecNext s .init (respond .ack 0 (configure (consume s)))
  | setPixel {idx : BitVec 16} {c : Color} (hf : firstFault (.setPixel idx c) s = none) (hr : indexInRange idx s = true) :
      ExecNext s (.setPixel idx c) (respond .ack 0 (fsWrite (pixelIndex idx) c (consume s)))
  | setPixelIgnored {idx : BitVec 16} {c : Color} (hf : firstFault (.setPixel idx c) s = none)
      (hr : indexInRange idx s = false) : ExecNext s (.setPixel idx c) (respond .ack 0 (consume s))
  | setPixelChannels {idx : BitVec 16} {r g b : Byte} (hf : firstFault (.setPixelChannels idx r g b) s = none)
      (hr : indexInRange idx s = true) :
      ExecNext s (.setPixelChannels idx r g b) (respond .ack 0 (fsWrite (pixelIndex idx) ⟨r, g, b⟩ (consume s)))
  | setPixelChannelsIgnored {idx : BitVec 16} {r g b : Byte} (hf : firstFault (.setPixelChannels idx r g b) s = none)
      (hr : indexInRange idx s = false) : ExecNext s (.setPixelChannels idx r g b) (respond .ack 0 (consume s))
  | fill {c : Color} (hf : firstFault (.fill c) s = none) :
      ExecNext s (.fill c) (respond .ack 0 (fsFill c (consume s)))
  | transmit (hf : firstFault .transmit s = none) :
      ExecNext s .transmit (setPhase .encode (clearPolls (consume s)))
  | getPixel {idx : BitVec 16} {c : Color} (hf : firstFault (.getPixel idx) s = none)
      (hr : fsRead s (pixelIndex idx) = some c) :
      ExecNext s (.getPixel idx) (respond .color (colorPayload c) (consume s))
  | encode (hp : s.phase = .encode) :
      ExecNext s .encode (setPhase .engDisable (memWriteAll (enc s.cfg s.fs) s))
  | engDisable (hp : s.phase = .engDisable) : ExecNext s .engDisable (setPhase .engLoad (setEngEn false s))
  | engLoad (hp : s.phase = .engLoad) : ExecNext s .engLoad (setPhase .engEnable (setEngCnt s.cfg.len s))
  | engEnable (hp : s.phase = .engEnable) : ExecNext s .engEnable (setPhase .tmrEnable (setEngEn true s))
  | tmrEnable (hp : s.phase = .tmrEnable) : ExecNext s .tmrEnable (setPhase .wait (setTmrEn true s))
  | waitDone (hp : s.phase = .wait) (ht : s.tc = true) : ExecNext s .wait (setPhase .clearTc s)
  | waitPoll {b : Nat} (hp : s.phase = .wait) (ht : s.tc = false) (hb : s.cfg.waitBound = some b)
      (hn : s.polls + 1 ≠ b) : ExecNext s .wait (setPolls (s.polls + 1) s)
  | waitAbort {b : Nat} (hp : s.phase = .wait) (ht : s.tc = false) (hb : s.cfg.waitBound = some b)
      (hn : s.polls + 1 = b) : ExecNext s .wait (setPhase .abort (setPolls (s.polls + 1) s))
  | clearTc (hp : s.phase = .clearTc) : ExecNext s .clearTc (setPhase .tmrDisable (setTc false s))
  | tmrDisable (hp : s.phase = .tmrDisable) : ExecNext s .tmrDisable (respondDone .ok (endTransmission s))
  | abort (hp : s.phase = .abort) : ExecNext s .abort (respondDone .timedOut (abortTransmission s))
  | timerPeriod (he : s.tmrCtrl.en = true) (hr : s.reqPending = false) :
      ExecNext s .timerPeriod { s with periods := s.periods ++ [s.tmrCmp], reqPending := s.tmrCtrl.reqEn }
  | transfer {v : Elem} (hr : s.reqPending = true) (he : s.engCfg.en = true) (hc : 0 < s.engCnt)
      (hl : s.engCnt ≤ s.cfg.len) (hv : s.buf[s.cfg.len - s.engCnt]? = some v) :
      ExecNext s .engineService { s with
        reqPending := false, tmrCmp := v, emitted := s.emitted ++ [v], engCnt := s.engCnt - 1,
        tc := s.tc || s.engCnt == 1 }
  | dropRequest (hr : s.reqPending = true) (he : s.engCfg.en = false ∨ s.engCnt = 0) :
      ExecNext s .engineService (setReqPending false s)

theorem CommandNext.execNext {effect : Prop} (h : CommandNext i s t effect) (hi : i.isCommand = true)
    (he : firstFault i s = none → effect → ExecNext s i t) : s.blkFault = 0#32 ∧ ExecNext s i t := by
  obtain ⟨hl, ⟨code, hf, rfl⟩ | ⟨hn, h⟩⟩ := h
  · exact ⟨hl, .fault hi hf⟩
  · exact ⟨hl, he hn h⟩

theorem PhaseNext.execNext {p : Phase} {u : State} (h : PhaseNext p s t u) (hi : i.isCommand = false)
    (he : s.phase = p → ExecNext s i u) : s.blkFault = 0#32 ∧ ExecNext s i t := by
  obtain ⟨hl, ⟨hp, rfl⟩ | ⟨-, rfl⟩⟩ := h
  · exact ⟨hl, he hp⟩
  · exact ⟨hl, .hold hi⟩

/-- Every next state of every instruction is one of ExecNext, and no instruction has one once a fault is recorded (R201). -/
theorem exec_next (h : exec i s = .next t) : s.blkFault = 0#32 ∧ ExecNext s i t := by
  cases i with
  | init => exact (execInit_next.1 h).execNext rfl fun hf ht => ht ▸ .init hf
  | setPixel idx c =>
    refine (execSetPixel_next.1 h).execNext rfl fun hf ht => ht ▸ ?_
    split_ifs with hr
    · exact .setPixel hf hr
    · exact .setPixelIgnored hf (by simpa using hr)
  | setPixelChannels idx r g b =>
    refine (execSetPixelChannels_next.1 h).execNext rfl fun hf ht => ht ▸ ?_
    split_ifs with hr
    · exact .setPixelChannels hf hr
    · exact .setPixelChannelsIgnored hf (by simpa using hr)
  | fill c => exact (execFill_next.1 h).execNext rfl fun hf ht => ht ▸ .fill hf
  | transmit => exact (execTransmit_next.1 h).execNext rfl fun hf ht => ht ▸ .transmit hf
  | getPixel idx => exact (execGetPixel_next.1 h).execNext rfl fun hf ⟨c, hr, ht⟩ => ht ▸ .getPixel hf hr
  | encode => exact (execEncode_next.1 h).execNext rfl .encode
  | engDisable => exact (execEngDisable_next.1 h).execNext rfl .engDisable
  | engLoad => exact (execEngLoad_next.1 h).execNext rfl .engLoad
  | engEnable => exact (execEngEnable_next.1 h).execNext rfl .engEnable
  | tmrEnable => exact (execTmrEnable_next.1 h).execNext rfl .tmrEnable
  | wait =>
    obtain ⟨hl, ⟨hp, ⟨ht, rfl⟩ | ⟨-, -, rfl⟩ | ⟨ht, b, hb, rfl⟩⟩ | ⟨-, rfl⟩⟩ := execWait_next.1 h
    · exact ⟨hl, .waitDone hp ht⟩
    · exact ⟨hl, .hold rfl⟩
    · refine ⟨hl, ?_⟩
      split_ifs with hn
      · exact .waitAbort hp ht hb hn
      · exact .waitPoll hp ht hb hn
    · exact ⟨hl, .hold rfl⟩
  | clearTc => exact (execClearTc_next.1 h).execNext rfl .clearTc
  | tmrDisable => exact (execTmrDisable_next.1 h).execNext rfl .tmrDisable
  | abort => exact (execAbort_next.1 h).execNext rfl .abort
  | timerPeriod =>
    obtain ⟨hl, ⟨he, hr, rfl⟩ | ⟨-, rfl⟩⟩ := execTimerPeriod_next.1 h
    · exact ⟨hl, .timerPeriod he hr⟩
    · exact ⟨hl, .hold rfl⟩
  | engineService =>
    obtain ⟨hl, ⟨hr, he, hc, hle, v, hv, rfl⟩ | ⟨hr, he, rfl⟩ | ⟨-, rfl⟩⟩ := execEngineService_next.1 h
    · exact ⟨hl, .transfer hr he hc hle hv⟩
    · exact ⟨hl, .dropRequest hr he⟩
    · exact ⟨hl, .hold rfl⟩

/-! ## What holds of every step and of every reachable state -/

/-- A predicate that every instruction, the recording of an illegal word's fault and the issuers' moves keep is kept by
every step. -/
theorem step_keeps {P : State → Prop} (hexec : ∀ i s t, P s → exec i s = .next t → P t)
    (hfault : ∀ w s, P s → P (raiseFault .illegalCommand w s)) (hadvance : ∀ s, P s → P (advance s))
    (hhost : ∀ s, P s → P (hostMove s)) (hsecond : ∀ s, P s → P (secondMove s))
    (hs : P s) (h : step s = .next t) : P t := by
  obtain ⟨-, ⟨w, -, ⟨i, -, h⟩ | ⟨r, -, rfl⟩⟩ | ⟨-, h⟩⟩ := step_next h
  · exact hexec i s t hs h
  · exact hfault w s hs
  · have ha := hadvance s hs
    obtain ⟨-, rfl⟩ | ⟨-, rfl⟩ | ⟨-, -, rfl⟩ | ⟨-, i, -, h⟩ | ⟨-, h⟩ | ⟨-, h⟩ := h
    · exact hhost _ ha
    · exact hsecond _ ha
    · exact ha
    · exact hexec i _ t ha h
    · exact hexec _ _ t ha h
    · exact hexec _ _ t ha h

/-- What every step keeps, every run keeps. -/
theorem run_keeps {P : State → Prop} (hstep : ∀ s t, P s → step s = .next t → P t) (n : Nat)
    (hs : P s) (h : Sys2Proof.core.run n s = .next t) : P t := by
  induction n generalizing s with
  | zero => cases h; exact hs
  | succ n ih =>
    obtain ⟨u, hu, h⟩ := core_run_succ.1 h
    exact ih (hstep s u hs hu) h

/-- What holds after reset, with every load, and is kept by every step holds of every reachable state. -/
theorem reachable_induction {P : State → Prop}
    (hboot : ∀ c head prog second sched, c.Admissible → P (State.boot c head prog second sched))
    (hstep : ∀ s t, P s → step s = .next t → P t) (h : Reachable s) : P s := by
  obtain ⟨c, head, prog, second, sched, n, hc, h⟩ := h
  exact run_keeps hstep n (hboot c head prog second sched hc) h

end Sys2Proof.Machine
end

section
/-! The fault record (R46). -/

namespace Sys2Proof.Machine

variable {i : Instr} {s t : State}

@[simp] theorem hostMove_blkFault (s : State) : (hostMove s).blkFault = s.blkFault := by
  obtain h | ⟨-, h⟩ | ⟨w, ws, -, -, -, -, h⟩ := hostMove_cases s <;> rw [h]

@[simp] theorem hostMove_faultCmd (s : State) : (hostMove s).faultCmd = s.faultCmd := by
  obtain h | ⟨-, h⟩ | ⟨w, ws, -, -, -, -, h⟩ := hostMove_cases s <;> rw [h]

@[simp] theorem secondMove_blkFault (s : State) : (secondMove s).blkFault = s.blkFault := by
  obtain h | ⟨w, ws, -, -, h⟩ := secondMove_cases s <;> rw [h]

@[simp] theorem secondMove_faultCmd (s : State) : (secondMove s).faultCmd = s.faultCmd := by
  obtain h | ⟨w, ws, -, -, h⟩ := secondMove_cases s <;> rw [h]

/-- An instruction leaves the fault record, or is a command whose fault is recorded. -/
theorem exec_faultRecord (h : exec i s = .next t) :
    t.blkFault = s.blkFault ∧ t.faultCmd = s.faultCmd ∨
      i.isCommand = true ∧ ∃ code, firstFault i s = some code ∧ t = raiseFault code (commandWord i) s := by
  cases (exec_next h).2 with
  | fault hi hf => exact .inr ⟨hi, _, hf, rfl⟩
  | _ => exact .inl (by simp)

/-- A controller step or an agent's event records no fault. -/
theorem exec_faultRecord_of_not_isCommand (hi : i.isCommand = false) (h : exec i s = .next t) :
    t.blkFault = s.blkFault ∧ t.faultCmd = s.faultCmd := by
  obtain h | ⟨hc, -⟩ := exec_faultRecord h
  · exact h
  · cases hi.symm.trans hc

/-- Recording a fault where none is recorded sets that fault's bit alone (R201). -/
theorem raiseFault_of_live {code : FaultCode} {w : CmdWord} (hl : s.Live) :
    raiseFault code w s = { s with blkFault := 1#32 <<< faultBit code, faultCmd := w, cmdIn := none } := by
  simp [raiseFault, setFault, faultMask, hl]

/-- A step for a presented word leaves the fault record, or records one fault for that word. -/
theorem step_faultRecord (h : step s = .next t) :
    t.blkFault = s.blkFault ∧ t.faultCmd = s.faultCmd ∨
      ∃ code w, s.cmdIn = some w ∧ t = raiseFault code w s := by
  obtain ⟨-, ⟨w, hw, ⟨i, hd, h⟩ | ⟨r, -, rfl⟩⟩ | ⟨-, h⟩⟩ := step_next h
  · refine (exec_faultRecord h).imp_right fun ⟨_, code, _, ht⟩ => ⟨code, w, hw, ?_⟩
    rw [ht, commandWord_of_decodeCommand hd]
  · exact .inr ⟨.illegalCommand, w, hw, rfl⟩
  · left
    obtain ⟨-, rfl⟩ | ⟨-, rfl⟩ | ⟨-, -, rfl⟩ | ⟨-, i, hi, h⟩ | ⟨-, h⟩ | ⟨-, h⟩ := h
    · simp
    · simp
    · simp
    · exact exec_faultRecord_of_not_isCommand (s := advance s) (isCommand_of_phase? (phase?_of_phaseInstr hi)) h
    · exact exec_faultRecord_of_not_isCommand (s := advance s) rfl h
    · exact exec_faultRecord_of_not_isCommand (s := advance s) rfl h

/-- Settles O13: a fault is recorded only through raiseFault, by a command or an illegal word, and the word of a command
that was decoded is the word it was decoded from. -/
theorem faultRecordHoldsThePresentedWord : Obligations.FaultRecordHoldsThePresentedWord := by
  unfold Obligations.FaultRecordHoldsThePresentedWord
  refine ⟨fun c head => rfl, fun s t h => ?_⟩
  refine (step_faultRecord h).imp_right fun ⟨code, w, hw, ht⟩ => ⟨code, w, hw, ?_⟩
  rw [ht, raiseFault_of_live (step_next h).1]

end Sys2Proof.Machine
end

section
/-! The observation lists (R40). -/

namespace Sys2Proof.Machine

variable {i : Instr} {s t : State}

/-- Neither list has changed. -/
def SameLists (s t : State) : Prop := t.emitted = s.emitted ∧ t.periods = s.periods

/-- Only the agents' events write the lists. -/
theorem exec_sameLists (hi : i.isCommand = true ∨ i.phase?.isSome = true) (h : exec i s = .next t) : SameLists s t := by
  cases (exec_next h).2 with
  | timerPeriod => exact absurd hi (by decide)
  | transfer => exact absurd hi (by decide)
  | _ => exact ⟨by simp, by simp⟩

theorem hostMove_sameLists (s : State) : SameLists s (hostMove s) := by
  obtain h | ⟨-, h⟩ | ⟨w, ws, -, -, -, -, h⟩ := hostMove_cases s <;> rw [h] <;> exact ⟨rfl, rfl⟩

theorem secondMove_sameLists (s : State) : SameLists s (secondMove s) := by
  obtain h | ⟨w, ws, -, -, h⟩ := secondMove_cases s <;> rw [h] <;> exact ⟨rfl, rfl⟩

/-- A step that is no move of the timer or the engine leaves both lists. -/
theorem step_sameLists (h : step s = .next t) (ha : s.cmdIn = none → nextAgent s ≠ .timer ∧ nextAgent s ≠ .engine) :
    SameLists s t := by
  obtain ⟨-, ⟨w, -, ⟨i, hd, h⟩ | ⟨r, -, rfl⟩⟩ | ⟨hn, h⟩⟩ := step_next h
  · exact exec_sameLists (.inl (isCommand_of_decodeCommand hd)) h
  · exact ⟨rfl, rfl⟩
  · obtain ⟨-, rfl⟩ | ⟨-, rfl⟩ | ⟨-, -, rfl⟩ | ⟨-, i, hi, h⟩ | ⟨hm, -⟩ | ⟨hm, -⟩ := h
    · exact hostMove_sameLists (advance s)
    · exact secondMove_sameLists (advance s)
    · exact ⟨rfl, rfl⟩
    · exact exec_sameLists (s := advance s) (.inr (by rw [phase?_of_phaseInstr hi]; rfl)) h
    · exact absurd hm (ha hn).1
    · exact absurd hm (ha hn).2

/-- The timer's move logs the compare value of the period, or is not enabled and leaves both lists. -/
theorem step_timer (hn : s.cmdIn = none) (ha : nextAgent s = .timer) (h : step s = .next t) :
    (s.tmrCtrl.en = true ∧ s.reqPending = false ∧
      t.emitted = s.emitted ∧ t.periods = s.periods ++ [s.tmrCmp] ∧ t.tmrCmp = s.tmrCmp) ∨
    ((s.tmrCtrl.en = false ∨ s.reqPending = true) ∧ SameLists s t) := by
  have hx : exec .timerPeriod (advance s) = .next t := by simpa [hn, ha] using (step_next h).2
  obtain ⟨-, ⟨he, hr, rfl⟩ | ⟨hoff, rfl⟩⟩ := execTimerPeriod_next.1 hx
  · exact .inl ⟨he, hr, rfl, rfl, rfl⟩
  · exact .inr ⟨hoff, rfl, rfl⟩

/-- The engine's move transfers the element at LEN - CNT and logs it, or has nothing to transfer and leaves both lists
and CNT. -/
theorem step_engine (hn : s.cmdIn = none) (ha : nextAgent s = .engine) (h : step s = .next t) :
    (t.emitted = s.emitted ++ [t.tmrCmp] ∧ t.periods = s.periods ∧
      memRead s (s.cfg.len - s.engCnt) = some t.tmrCmp ∧ t.engCnt + 1 = s.engCnt) ∨
    (¬ (s.reqPending = true ∧ s.engCfg.en = true ∧ 0 < s.engCnt) ∧ SameLists s t ∧ t.engCnt = s.engCnt) := by
  have hx : exec .engineService (advance s) = .next t := by simpa [hn, ha] using (step_next h).2
  obtain ⟨-, ⟨-, -, hpos, -, v, hv, rfl⟩ | ⟨-, hoff, rfl⟩ | ⟨hr, rfl⟩⟩ := execEngineService_next.1 hx
  · exact .inl ⟨rfl, rfl, hv, Nat.sub_add_cancel hpos⟩
  · refine .inr ⟨fun ⟨_, he, hpos⟩ => ?_, ⟨rfl, rfl⟩, rfl⟩
    obtain h | h := hoff
    · cases he.symm.trans h
    · exact hpos.ne' h
  · exact .inr ⟨fun ⟨hr', _⟩ => Bool.false_ne_true (hr.symm.trans hr'), ⟨rfl, rfl⟩, rfl⟩

/-- Settles O43: with no word presented, the engine's move and the timer's are the two that can write the lists; every
other step leaves both. -/
theorem observationListsRecordTheLine : Obligations.ObservationListsRecordTheLine := by
  unfold Obligations.ObservationListsRecordTheLine
  refine ⟨fun c head => ⟨rfl, rfl⟩, fun s t h => ?_⟩
  by_cases he : s.cmdIn = none ∧ nextAgent s = .engine
  · obtain ⟨hn, ha⟩ := he
    have not_timer : nextAgent s ≠ .timer := by simp [ha]
    refine ⟨?_, fun _ _ hc => ?_, fun _ ha' => absurd ha' not_timer⟩
    · obtain ⟨hem, hpe, hv, hc⟩ | ⟨-, hsame, -⟩ := step_engine hn ha h
      · exact .inr (.inl ⟨ha, hem, hpe, hv, hc⟩)
      · exact .inl hsame
    · obtain ⟨hem, -⟩ | ⟨hoff, -, hcnt⟩ := step_engine hn ha h
      · exact hem
      · exact absurd hc (not_or.2 ⟨hcnt.not_lt, hoff⟩)
  by_cases ht : s.cmdIn = none ∧ nextAgent s = .timer
  · obtain ⟨hn, ha⟩ := ht
    refine ⟨?_, fun hn ha' => absurd ⟨hn, ha'⟩ he, fun _ _ hen hr => ?_⟩
    · obtain ⟨hen, hr, hem, hpe, hcmp⟩ | ⟨-, hsame⟩ := step_timer hn ha h
      · exact .inr (.inr ⟨ha, hem, hpe, hcmp, hen, hr⟩)
      · exact .inl hsame
    · obtain ⟨-, -, -, hpe, -⟩ | ⟨hoff, -⟩ := step_timer hn ha h
      · exact hpe
      · simp [hen, hr] at hoff
  · have hsame := step_sameLists h fun hn => ⟨fun ha => ht ⟨hn, ha⟩, fun ha => he ⟨hn, ha⟩⟩
    exact ⟨.inl hsame, fun hn ha => absurd ⟨hn, ha⟩ he, fun hn ha => absurd ⟨hn, ha⟩ ht⟩

end Sys2Proof.Machine
end

section
/-! The reset gap of BUF (R26). -/

namespace Sys2Proof.Machine

variable {i : Instr} {s t : State}

/-- The stores have their lengths and the last R entries of BUF are 0: the part of State.Inv that speaks of BUF in every
phase, which every step keeps by itself. -/
def State.GapZero (s : State) : Prop :=
  s.memWf = true ∧ s.buf.drop s.cfg.dataLen = List.replicate s.cfg.r 0

/-- The gap depends on the configuration and the stores alone. -/
theorem State.GapZero.of_eq (h : s.GapZero) (hc : t.cfg = s.cfg) (hf : t.fs = s.fs) (hb : t.buf = s.buf) :
    t.GapZero := by
  simpa only [State.GapZero, State.memWf, hc, hf, hb] using h

theorem State.GapZero.hostMove (h : s.GapZero) : (hostMove s).GapZero := by
  obtain he | ⟨-, he⟩ | ⟨w, ws, -, -, -, -, he⟩ := hostMove_cases s <;> rw [he] <;> exact h

theorem State.GapZero.secondMove (h : s.GapZero) : (secondMove s).GapZero := by
  obtain he | ⟨w, ws, -, -, he⟩ := secondMove_cases s <;> rw [he] <;> exact h

/-- Writes to the Frame Store keep its length, and ENCODE is the only instruction that writes BUF. -/
theorem exec_gapZero (hs : s.GapZero) (h : exec i s = .next t) : t.GapZero := by
  obtain ⟨hm, hgap⟩ := hs
  cases (exec_next h).2 with
  | setPixel => exact ⟨fsWrite_memWf _ _ hm, hgap⟩
  | setPixelChannels => exact ⟨fsWrite_memWf _ _ hm, hgap⟩
  | fill => exact ⟨fsFill_memWf _ hm, hgap⟩
  | encode => exact ⟨memWriteAll_enc_memWf (s := s) hm, enc_drop (memWf_iff.1 hm).1⟩
  | _ => exact State.GapZero.of_eq ⟨hm, hgap⟩ (by simp) (by simp) (by simp)

theorem step_gapZero (hs : s.GapZero) (h : step s = .next t) : t.GapZero :=
  step_keeps (P := State.GapZero) (fun _ _ _ => exec_gapZero) (fun _ _ h => h) (fun _ h => h)
    (fun _ => .hostMove) (fun _ => .secondMove) hs h

theorem boot_gapZero (c : Config) (head : Nat → Elem) (prog second : List CmdWord) (sched : List Agent) :
    (State.boot c head prog second sched).GapZero :=
  ⟨resetOf_memWf c head, List.drop_left' (by rw [List.length_map, List.length_range]; rfl)⟩

/-- Entry by entry, the gap reads 0. -/
theorem State.GapZero.getElem? (h : s.GapZero) {j : Nat} (hj : s.cfg.dataLen ≤ j) (hl : j < s.cfg.len) :
    s.buf[j]? = some 0 := by
  obtain ⟨-, hgap⟩ := h
  have hr : j - s.cfg.dataLen < s.cfg.r := by unfold Config.len at hl; omega
  calc s.buf[j]? = (s.buf.drop s.cfg.dataLen)[j - s.cfg.dataLen]? := by
        rw [List.getElem?_drop, Nat.add_sub_cancel' hj]
    _ = some 0 := by rw [hgap, List.getElem?_replicate_of_lt hr]

/-- Settles O47: the gap is zero after reset, every step keeps it so, and a run is its steps. -/
theorem reachableResetGapIsZero : Obligations.ReachableResetGapIsZero := by
  unfold Obligations.ReachableResetGapIsZero
  intro s hs j hj hl
  have hgap : s.GapZero :=
    reachable_induction (fun c head prog second sched _ => boot_gapZero c head prog second sched)
      (fun _ _ => step_gapZero) hs
  exact hgap.getElem? (by rw [Config.dataLen, Nat.mul_comm]; exact hj) hl

end Sys2Proof.Machine
end

section
/-! The row a word spells, and what the decoder makes of it (R84, R85, R92). -/

namespace Sys2Proof

/-! ## The opcode picks the row -/

theorem Cmd.mem_all (x : Cmd) : x ∈ Cmd.all := by cases x <;> decide

/-- No two rows have the same opcode (R85). -/
theorem Cmd.opcode_injective {x y : Cmd} (h : x.opcode = y.opcode) : x = y := by
  revert h; cases x <;> cases y <;> decide

/-- The valid opcodes are 0x01 to 0x06 (R84). -/
theorem Cmd.exists_opcode_iff {op : Byte} : (∃ x : Cmd, op = x.opcode) ↔ op.toNat ≠ 0 ∧ op.toNat < 7 := by
  constructor
  · rintro ⟨x, rfl⟩
    cases x <;> decide
  · rintro ⟨h0, h7⟩
    obtain h | h | h | h | h | h : op.toNat = 1 ∨ op.toNat = 2 ∨ op.toNat = 3 ∨ op.toNat = 4 ∨ op.toNat = 5 ∨
      op.toNat = 6 := by omega
    · exact ⟨.init, BitVec.eq_of_toNat_eq h⟩
    · exact ⟨.setPixel, BitVec.eq_of_toNat_eq h⟩
    · exact ⟨.setPixelChannels, BitVec.eq_of_toNat_eq h⟩
    · exact ⟨.fill, BitVec.eq_of_toNat_eq h⟩
    · exact ⟨.transmit, BitVec.eq_of_toNat_eq h⟩
    · exact ⟨.getPixel, BitVec.eq_of_toNat_eq h⟩

theorem opOf_of_spells {x : Cmd} {w : CmdWord} (h : x.spells w = true) : opOf w = x.opcode :=
  (extractLsb'_of_spells h (by cases x <;> rfl)).trans (by cases x <;> rfl)

theorem Cmd.eq_of_spells {x y : Cmd} {w : CmdWord} (hx : x.spells w = true) (hy : y.spells w = true) : x = y :=
  Cmd.opcode_injective ((opOf_of_spells hx).symm.trans (opOf_of_spells hy))

theorem find?_spells_eq_some_iff {x : Cmd} {w : CmdWord} :
    Cmd.all.find? (fun y => y.spells w) = some x ↔ x.spells w = true := by
  refine ⟨fun h => by simpa using List.find?_some h, fun hx => ?_⟩
  obtain ⟨y, hy⟩ := Option.isSome_iff_exists.1 (List.find?_isSome (p := fun y => y.spells w) |>.2 ⟨x, x.mem_all, hx⟩)
  have hys : y.spells w = true := by simpa using List.find?_some hy
  rw [hy, Cmd.eq_of_spells hys hx]

/-! ## The decoder, by the row a word spells -/

theorem decodeCommand_of_spells {x : Cmd} {w : CmdWord} (g : Bool) (h : x.spells w = true) :
    decodeCommand g w = if x = .getPixel ∧ g = false then .error .noGetter else .ok (x.build w) := by
  rw [decodeCommand, find?_spells_eq_some_iff.2 h]

theorem decodeCommand_of_forall_not_spells {w : CmdWord} (g : Bool) (h : ∀ x : Cmd, x.spells w ≠ true) :
    decodeCommand g w = .error (rejectWord w) := by
  rw [decodeCommand, List.find?_eq_none.2 fun x _ => h x]

theorem opOf_commandWord_build (x : Cmd) (w : CmdWord) : opOf (commandWord (x.build w)) = x.opcode := by
  cases x <;> exact opOf_cmdWord ..

/-- Different rows build different instructions, whatever the word: their encodings differ in the opcode. -/
theorem Cmd.build_injective {x y : Cmd} {w : CmdWord} (h : x.build w = y.build w) : x = y := by
  apply Cmd.opcode_injective
  rw [← opOf_commandWord_build x w, h, opOf_commandWord_build]

/-- A word decodes to a row's instruction, with its own fields as operands, exactly when it spells the row, which for
GET_PIXEL takes a getter (R85, R92). -/
theorem decodeCommand_eq_build_iff {x : Cmd} {g : Bool} {w : CmdWord} :
    decodeCommand g w = .ok (x.build w) ↔ ¬ (x = .getPixel ∧ g = false) ∧ x.spells w = true := by
  constructor
  · intro h
    obtain ⟨y, hy, hb⟩ := decodeCommand_ok h
    obtain rfl := Cmd.build_injective hb
    refine ⟨fun hg => ?_, hy⟩
    rw [decodeCommand_of_spells g hy, if_pos hg] at h
    cases h
  · rintro ⟨hg, hx⟩
    rw [decodeCommand_of_spells g hx, if_neg hg]

/-- A row other than GET_PIXEL needs no getter. -/
theorem decodeCommand_eq_build_iff_of_ne {x : Cmd} (hx : x ≠ .getPixel) {g : Bool} {w : CmdWord} :
    decodeCommand g w = .ok (x.build w) ↔ w &&& x.mask = x.pat := by
  rw [decodeCommand_eq_build_iff, Cmd.spells, beq_iff_eq, and_iff_right fun h => hx h.1]

/-- Settles O4: each clause is a row of the table, and its instruction is the one that the row builds from the word. -/
theorem wordSpellsCommandByMatchAndMask : Obligations.WordSpellsCommandByMatchAndMask := by
  unfold Obligations.WordSpellsCommandByMatchAndMask
  intro g w
  refine ⟨decodeCommand_eq_build_iff_of_ne (x := .init) nofun, decodeCommand_eq_build_iff_of_ne (x := .setPixel) nofun,
    decodeCommand_eq_build_iff_of_ne (x := .setPixelChannels) nofun, decodeCommand_eq_build_iff_of_ne (x := .fill) nofun,
    decodeCommand_eq_build_iff_of_ne (x := .transmit) nofun, ?_⟩
  refine (decodeCommand_eq_build_iff (x := .getPixel)).trans (and_congr ?_ beq_iff_eq)
  cases g <;> decide

end Sys2Proof
end

section
/-! The illegal words, by their fields (R84, R86), and the fault they record (R202). -/

namespace Sys2Proof

/-- Two words that agree on a field agree on each of its bits. -/
theorem getLsbD_eq_of_extractLsb'_eq {v w : CmdWord} {start len k : Nat}
    (h : v.extractLsb' start len = w.extractLsb' start len) (hs : start ≤ k) (hk : k < start + len) :
    v.getLsbD k = w.getLsbD k := by
  have hbit := congrArg (fun u => u.getLsbD (k - start)) h
  simpa [Nat.add_sub_cancel' hs, show k - start < len by omega] using hbit

/-- Two words are equal exactly when their fields are (R81), the three channels read as one. -/
theorem word_eq_iff_fields {v w : CmdWord} :
    v = w ↔ opOf v = opOf w ∧ v.extractLsb' 48 8 = w.extractLsb' 48 8 ∧ v.extractLsb' 24 8 = w.extractLsb' 24 8 ∧
      idxOf v = idxOf w ∧ v.extractLsb' 0 24 = w.extractLsb' 0 24 := by
  refine ⟨fun h => by simp [h], fun ⟨hop, hres1, hres0, hidx, hcolor⟩ => ?_⟩
  apply BitVec.eq_of_getLsbD_eq
  intro k hk
  obtain h | h | h | h | h : 56 ≤ k ∨ 48 ≤ k ∧ k < 56 ∨ 32 ≤ k ∧ k < 48 ∨ 24 ≤ k ∧ k < 32 ∨ k < 24 := by omega
  · exact getLsbD_eq_of_extractLsb'_eq hop h hk
  · exact getLsbD_eq_of_extractLsb'_eq hres1 h.1 h.2
  · exact getLsbD_eq_of_extractLsb'_eq hidx h.1 h.2
  · exact getLsbD_eq_of_extractLsb'_eq hres0 h.1 h.2
  · exact getLsbD_eq_of_extractLsb'_eq hcolor (Nat.zero_le k) (by omega)

/-- The rows whose IDX field must be 0 (R84). -/
def Cmd.idxMustBeZero : Cmd → Bool
  | .init | .fill | .transmit => true
  | .setPixel | .setPixelChannels | .getPixel => false

/-- The rows whose three channel fields must be 0 (R84). -/
def Cmd.colorMustBeZero : Cmd → Bool
  | .init | .transmit | .getPixel => true
  | .setPixel | .setPixelChannels | .fill => false

theorem Cmd.idxMustBeZero_iff {x : Cmd} :
    x.idxMustBeZero = true ↔ x.opcode.toNat = 1 ∨ x.opcode.toNat = 4 ∨ x.opcode.toNat = 5 := by
  cases x <;> decide

theorem Cmd.colorMustBeZero_iff {x : Cmd} :
    x.colorMustBeZero = true ↔ x.opcode.toNat = 1 ∨ x.opcode.toNat = 5 ∨ x.opcode.toNat = 6 := by
  cases x <;> decide

theorem Cmd.eq_getPixel_iff {x : Cmd} : x = .getPixel ↔ x.opcode.toNat = 6 := by cases x <;> decide

/-- A word spells a row exactly when it has the row's opcode and every field that must be 0 is 0 (R84, R85). -/
theorem spells_iff_fields {x : Cmd} {w : CmdWord} :
    x.spells w = true ↔ opOf w = x.opcode ∧ w.extractLsb' 48 8 = 0#8 ∧ w.extractLsb' 24 8 = 0#8 ∧
      (x.idxMustBeZero = true → idxOf w = 0#16) ∧ (x.colorMustBeZero = true → w.extractLsb' 0 24 = 0#24) := by
  have ones8 (v : BitVec 8) : v &&& 255#8 = v := BitVec.and_allOnes
  have ones16 (v : BitVec 16) : v &&& 65535#16 = v := BitVec.and_allOnes
  have ones24 (v : BitVec 24) : v &&& 16777215#24 = v := BitVec.and_allOnes
  rw [Cmd.spells, beq_iff_eq, word_eq_iff_fields]
  cases x <;>
    simp [opOf, idxOf, BitVec.extractLsb'_and, Cmd.mask, Cmd.pat, Cmd.opcode, Cmd.idxMustBeZero, Cmd.colorMustBeZero,
      ones8, ones16, ones24]

/-- With a row's opcode, a word is illegal exactly when it does not spell that row, or the row is GET_PIXEL and there is
no getter. -/
theorem decodeCommand_error_iff_of_opOf {x : Cmd} {g : Bool} {w : CmdWord} (hop : opOf w = x.opcode) :
    (∃ r, decodeCommand g w = .error r) ↔ x.spells w ≠ true ∨ x = .getPixel ∧ g = false := by
  by_cases hx : x.spells w = true
  · rw [decodeCommand_of_spells g hx]
    by_cases hg : x = .getPixel ∧ g = false
    · simp [hg]
    · simp [hg, hx]
  · have none_spelled (y : Cmd) : y.spells w ≠ true := fun hy =>
      hx (Cmd.opcode_injective (hop.symm.trans (opOf_of_spells hy)) ▸ hy)
    simp [decodeCommand_of_forall_not_spells g none_spelled, hx]

/-- A word with no row's opcode is illegal. -/
theorem decodeCommand_error_of_opOf {w : CmdWord} (g : Bool) (hop : ¬ ∃ x : Cmd, opOf w = x.opcode) :
    ∃ r, decodeCommand g w = .error r :=
  ⟨_, decodeCommand_of_forall_not_spells g fun x hx => hop ⟨x, opOf_of_spells hx⟩⟩

/-- The illegal words are the three classes of R86. -/
theorem decodeCommand_error_iff_fields (g : Bool) (w : CmdWord) :
    (∃ r, decodeCommand g w = .error r) ↔
      (opOf w).toNat = 0 ∨ 7 ≤ (opOf w).toNat ∨
      (w.extractLsb' 48 8 ≠ 0#8 ∨ w.extractLsb' 24 8 ≠ 0#8 ∨
        ((opOf w).toNat = 1 ∨ (opOf w).toNat = 4 ∨ (opOf w).toNat = 5) ∧ idxOf w ≠ 0#16 ∨
        ((opOf w).toNat = 1 ∨ (opOf w).toNat = 5 ∨ (opOf w).toNat = 6) ∧ w.extractLsb' 0 24 ≠ 0#24) ∨
      (opOf w).toNat = 6 ∧ g = false := by
  by_cases hop : ∃ x : Cmd, opOf w = x.opcode
  · obtain ⟨h0, h7⟩ := Cmd.exists_opcode_iff.1 hop
    obtain ⟨x, hx⟩ := hop
    rw [decodeCommand_error_iff_of_opOf hx, Ne, spells_iff_fields, Cmd.idxMustBeZero_iff, Cmd.colorMustBeZero_iff,
      Cmd.eq_getPixel_iff, ← hx]
    simp only [true_and, not_and_or, Classical.not_imp, or_assoc, h0, h7.not_ge, false_or]
  · have hreserved : (opOf w).toNat = 0 ∨ 7 ≤ (opOf w).toNat := by
      rw [Cmd.exists_opcode_iff] at hop; omega
    exact iff_of_true (decodeCommand_error_of_opOf g hop) (by tauto)

end Sys2Proof

namespace Sys2Proof.Machine

/-- A presented word that does not decode records ILLEGAL_COMMAND (R202, R207). -/
theorem presentWord_of_error {s : State} {w : CmdWord} {r : Reject} (h : decodeCommand s.cfg.hasGetter w = .error r) :
    presentWord w s = .next (raiseFault .illegalCommand w s) := by
  simp [presentWord, fetchWord, h]

/-- Settles O5: the first part reads each row's mask as the fields that must be 0; the second is the fault that a word
which does not decode records. -/
theorem illegalWordsAreRejected : Obligations.IllegalWordsAreRejected := by
  unfold Obligations.IllegalWordsAreRejected
  refine ⟨decodeCommand_error_iff_fields, fun s w r hl hr => ?_⟩
  rw [presentWord_of_error hr, raiseFault_of_live hl]
  rfl

end Sys2Proof.Machine
end

section
/-! The assembler (R90). -/

namespace Sys2Proof

/-- An index literal is taken as it stands or refused. -/
theorem asmIndex_of_le {v : Nat} (h : v ≤ 65535) : asmIndex v = some (BitVec.ofNat 16 v) := if_pos h

theorem asmIndex_of_not_le {v : Nat} (h : ¬ v ≤ 65535) : asmIndex v = none := if_neg h

/-- Three channel literals are a Color when all are in range. -/
theorem asmColor_of_le {r g b : Nat} (h : r ≤ 255 ∧ g ≤ 255 ∧ b ≤ 255) :
    asmColor r g b = some ⟨BitVec.ofNat 8 r, BitVec.ofNat 8 g, BitVec.ofNat 8 b⟩ := by
  simp [asmColor, asmChannel, h]

/-- One channel literal out of range refuses all three. -/
theorem asmColor_of_not_le {r g b : Nat} (h : ¬ (r ≤ 255 ∧ g ≤ 255 ∧ b ≤ 255)) : asmColor r g b = none := by
  simp only [asmColor, asmChannel]
  split_ifs with hr hg hb
  · exact absurd ⟨hr, hg, hb⟩ h
  all_goals rfl

/-! The word of each line that has literals, from what its literals are read as. -/

theorem AsmLine.word_setPixel (idx r g b : Nat) :
    AsmLine.word (.setPixel idx r g b) =
      (asmIndex idx).bind fun i => (asmColor r g b).map (cmdWord 0x02#8 i) := by
  simp only [AsmLine.word, AsmLine.instr]
  cases asmIndex idx <;> cases asmColor r g b <;> rfl

/-- The three channel literals are read as a Color is (R83). -/
theorem AsmLine.word_setPixelChannels (idx r g b : Nat) :
    AsmLine.word (.setPixelChannels idx r g b) =
      (asmIndex idx).bind fun i => (asmColor r g b).map (cmdWord 0x03#8 i) := by
  simp [AsmLine.word, AsmLine.instr, asmColor, Option.map_bind, Function.comp_def, commandWord, encode]

theorem AsmLine.word_fill (r g b : Nat) : AsmLine.word (.fill r g b) = (asmColor r g b).map (cmdWord 0x04#8 0#16) := by
  simp only [AsmLine.word, AsmLine.instr]
  cases asmColor r g b <;> rfl

theorem AsmLine.word_getPixel (idx : Nat) :
    AsmLine.word (.getPixel idx) = (asmIndex idx).map fun i => cmdWord 0x06#8 i ⟨0#8, 0#8, 0#8⟩ := by
  simp only [AsmLine.word, AsmLine.instr]
  cases asmIndex idx <;> rfl

/-- An index and a Color of which one is refused give no word. -/
theorem bind_map_asm_eq_none {idx r g b : Nat} (f : BitVec 16 → Color → CmdWord)
    (h : ¬ (idx ≤ 65535 ∧ r ≤ 255 ∧ g ≤ 255 ∧ b ≤ 255)) :
    ((asmIndex idx).bind fun i => (asmColor r g b).map (f i)) = none := by
  by_cases hidx : idx ≤ 65535
  · rw [asmIndex_of_le hidx, asmColor_of_not_le fun hcolor => h ⟨hidx, hcolor⟩]; rfl
  · rw [asmIndex_of_not_le hidx]; rfl

/-- Settles O7: a line's word is made of what its literals are read as, and a literal is read as it stands or refused. -/
theorem assemblerRefusesLiteralsOutOfRange : Obligations.AssemblerRefusesLiteralsOutOfRange := by
  unfold Obligations.AssemblerRefusesLiteralsOutOfRange
  refine ⟨rfl, rfl, fun idx r g b => ⟨?_, ?_, ?_, ?_, ?_, ?_⟩⟩
  · rintro ⟨hidx, hcolor⟩
    rw [AsmLine.word_setPixel, AsmLine.word_setPixelChannels, asmIndex_of_le hidx, asmColor_of_le hcolor]
    exact ⟨rfl, rfl⟩
  · intro h
    rw [AsmLine.word_setPixel, AsmLine.word_setPixelChannels]
    exact ⟨bind_map_asm_eq_none _ h, bind_map_asm_eq_none _ h⟩
  · intro hcolor
    rw [AsmLine.word_fill, asmColor_of_le hcolor]
    rfl
  · intro hcolor
    rw [AsmLine.word_fill, asmColor_of_not_le hcolor]
    rfl
  · intro hidx
    rw [AsmLine.word_getPixel, asmIndex_of_le hidx]
    rfl
  · intro hidx
    rw [AsmLine.word_getPixel, asmIndex_of_not_le hidx.not_ge]
    rfl

end Sys2Proof
end

section
/-! The checks of R207 on a command, one by one, and the faults they record. -/

namespace Sys2Proof.Machine

variable {i : Instr} {s t : State}

/-! ## Which check applies first -/

theorem indexInRange_eq_true {idx : BitVec 16} : indexInRange idx s = true ↔ idx.toNat < s.cfg.n := decide_eq_true_iff

theorem indexInRange_eq_false {idx : BitVec 16} : indexInRange idx s = false ↔ s.cfg.n ≤ idx.toNat :=
  decide_eq_false_iff_not.trans Nat.not_lt

theorem firstFault_of_not_wellFormed (hw : i.wellFormed s.cfg = false) : firstFault i s = some .illegalCommand :=
  if_pos hw

theorem firstFault_of_busy (hw : i.wellFormed s.cfg = true) (hp : s.phase ≠ .idle) : firstFault i s = some .busy := by
  simp [firstFault, hw, hp]

theorem firstFault_of_not_initDone (hw : i.wellFormed s.cfg = true) (hp : s.phase = .idle) (hi : i ≠ .init)
    (hd : s.initDone = false) : firstFault i s = some .notInitialized := by
  simp [firstFault, hw, hp, hi, hd]

/-- A Ready state leaves only the range check (R206). -/
theorem firstFault_of_index_out_of_range {idx : BitVec 16} (hs : s.Ready) (hw : i.wellFormed s.cfg = true)
    (hc : checkedIndex i = some idx) (hr : indexInRange idx s = false) : firstFault i s = some .indexRange := by
  obtain ⟨-, hp, hd⟩ := hs
  have hi : i ≠ .init := by rintro rfl; cases hc
  simp [firstFault, hw, hp, hi, hd, hc, hr]

theorem firstFault_of_ready (hs : s.Ready) (hw : i.wellFormed s.cfg = true) (hi : i ≠ .init)
    (hr : ∀ idx, checkedIndex i = some idx → indexInRange idx s = true) : firstFault i s = none :=
  firstFault_none.2 ⟨hw, hs.2.1, fun h => absurd h hi, fun _ => hs.2.2, hr⟩

/-- A command that exists in every configuration and reads at no index has two faults only (R101, R207). -/
theorem firstFault_some_of_unchecked {code : FaultCode} (hw : i.wellFormed s.cfg = true) (hi : i ≠ .init)
    (hc : checkedIndex i = none) (hf : firstFault i s = some code) : code = .notInitialized ∨ code = .busy := by
  by_cases hp : s.phase = .idle
  · by_cases hd : s.initDone = true
    · simp [firstFault, hw, hp, hi, hd, hc] at hf
    · rw [firstFault_of_not_initDone hw hp hi (by simpa using hd)] at hf
      exact .inl (Option.some.inj hf).symm
  · rw [firstFault_of_busy hw hp] at hf
    exact .inr (Option.some.inj hf).symm

/-! ## What the fault records -/

/-- Recording a fault leaves no live state (R201). -/
theorem not_live_raiseFault (code : FaultCode) (w : CmdWord) (s : State) : ¬ (raiseFault code w s).Live :=
  fun h => faultMask_ne_zero code (BitVec.or_eq_zero_iff.1 h).2

/-- Every command is a meaning behind the checks of R207. -/
theorem exec_eq_command (hi : i.isCommand = true) : ∃ k, ∀ s, exec i s = command i k s := by
  cases i with
  | init => exact ⟨_, fun _ => by rw [exec, execInit]⟩
  | setPixel idx color => exact ⟨_, fun _ => by rw [exec, execSetPixel]⟩
  | setPixelChannels idx r g b => exact ⟨_, fun _ => by rw [exec, execSetPixelChannels]⟩
  | fill color => exact ⟨_, fun _ => by rw [exec, execFill]⟩
  | transmit => exact ⟨_, fun _ => by rw [exec, execTransmit]⟩
  | getPixel idx => exact ⟨_, fun _ => by rw [exec, execGetPixel]⟩
  | _ => cases hi

/-- A command with a fault records it for its own word (R201, R207). -/
theorem exec_of_firstFault {code : FaultCode} (hi : i.isCommand = true) (hl : s.Live) (hf : firstFault i s = some code) :
    exec i s = .next { s with blkFault := 1#32 <<< faultBit code, faultCmd := commandWord i, cmdIn := none } := by
  obtain ⟨k, hk⟩ := exec_eq_command hi
  rw [hk, command_some hl hf, raiseFault_of_live hl]

/-- Every command but INIT has the two common faults. -/
theorem commonFaults (hc : i.isCommand = true) (hi : i ≠ .init) : CommonFaults i := by
  refine fun s hw => ⟨fun hl hp => ?_, fun ⟨hl, hp, hd⟩ => ?_⟩
  · exact exec_of_firstFault hc hl (firstFault_of_busy hw hp)
  · exact exec_of_firstFault hc hl (firstFault_of_not_initDone hw hp hi hd)

theorem exec_blkFault_of_unchecked (hw : i.wellFormed s.cfg = true) (hi : i ≠ .init) (hc : checkedIndex i = none)
    (h : exec i s = .next t) : t.blkFault = 0#32 ∨ t.blkFault = 0x02#32 ∨ t.blkFault = 0x08#32 := by
  have hl : s.Live := (exec_next h).1
  obtain ⟨hb, -⟩ | ⟨-, code, hf, rfl⟩ := exec_faultRecord h
  · exact .inl (hb.trans hl)
  · rw [raiseFault_of_live hl]
    obtain rfl | rfl := firstFault_some_of_unchecked hw hi hc hf
    · exact .inr (.inl rfl)
    · exact .inr (.inr rfl)

/-- A command that comes to a live state has passed every check. -/
theorem firstFault_of_exec_live (hi : i.isCommand = true) (h : exec i s = .next t) (ht : t.Live) :
    firstFault i s = none := by
  cases hf : firstFault i s with
  | none => rfl
  | some code =>
    have hl : s.Live := (exec_next h).1
    rw [exec_of_firstFault hi hl hf, ← raiseFault_of_live hl] at h
    cases h
    exact (not_live_raiseFault _ _ _ ht).elim

end Sys2Proof.Machine
end

section
/-! The Frame Store commands (R100 to R106): one function says what they leave in FS and answer. -/

namespace Sys2Proof.Machine

variable {i : Instr} {s t : State}

/-- The four commands of 40_frame_store.md. -/
def isFrameStoreCommand : Instr → Bool
  | .setPixel _ _ | .setPixelChannels _ _ _ _ | .fill _ | .getPixel _ => true
  | .init | .transmit => false
  | .encode | .engDisable | .engLoad | .engEnable | .tmrEnable | .wait | .clearTc | .tmrDisable | .abort => false
  | .timerPeriod | .engineService => false

theorem isCommand_of_isFrameStoreCommand (h : isFrameStoreCommand i = true) : i.isCommand = true := by
  cases i with
  | setPixel | setPixelChannels | fill | getPixel => rfl
  | _ => cases h

theorem ne_init_of_isFrameStoreCommand (h : isFrameStoreCommand i = true) : i ≠ .init := by
  rintro rfl; cases h

/-- FS after a setter: a write in range, nothing out of range (R101). -/
def setInRange (c : Config) (fs : List Color) (idx : BitVec 16) (color : Color) : List Color :=
  if idx.toNat < c.n then fs.set idx.toNat color else fs

/-- What a Frame Store command that executes leaves in FS and places in RESP; none where GET_PIXEL finds no Color, and for
every other instruction (tied to the model by exec_of_isFrameStoreCommand). -/
def frameStoreResult (c : Config) (fs : List Color) : Instr → Option (List Color × RespWord)
  | .setPixel idx color => some (setInRange c fs idx color, 0x01000000#32)
  | .setPixelChannels idx r g b => some (setInRange c fs idx ⟨r, g, b⟩, 0x01000000#32)
  | .fill color => some (List.replicate c.n color, 0x01000000#32)
  | .getPixel idx => fs[idx.toNat]?.map fun color => (fs, 0x02#8 ++ color.r ++ color.g ++ color.b)
  | _ => none

/-- The state with a Frame Store command's result, its word consumed. -/
def State.withResult (s : State) (r : List Color × RespWord) : State :=
  { s with fs := r.1, cmdIn := none, resp := some r.2 }

/-- The response COLOR, byte by byte (R88). -/
theorem respWord_color (c : Color) : respWord .color (colorPayload c) = 0x02#8 ++ c.r ++ c.g ++ c.b := by
  have regroup : 0x02#8 ++ (c.r ++ c.g ++ c.b) = 0x02#8 ++ c.r ++ c.g ++ c.b := by
    simp only [BitVec.append_assoc, BitVec.cast_eq]
  exact regroup

theorem setPixelEffect_consume (idx : BitVec 16) (color : Color) (s : State) :
    setPixelEffect idx color (consume s) = .next (s.withResult (setInRange s.cfg s.fs idx color, 0x01000000#32)) := by
  by_cases hr : idx.toNat < s.cfg.n
  · rw [setPixelEffect_eq, indexInRange_consume, if_pos (indexInRange_eq_true.2 hr), setInRange, if_pos hr]
    rfl
  · rw [setPixelEffect_eq, indexInRange_consume, if_neg (mt indexInRange_eq_true.1 hr), setInRange, if_neg hr]
    rfl

/-- What a Frame Store command does where no check stops it. -/
theorem exec_of_isFrameStoreCommand (hi : isFrameStoreCommand i = true) (hl : s.Live) (hf : firstFault i s = none) :
    exec i s = (frameStoreResult s.cfg s.fs i).elim (.fault .absentElement) fun r => .next (s.withResult r) := by
  cases i with
  | setPixel idx color => exact (command_none hl hf).trans (setPixelEffect_consume idx color s)
  | setPixelChannels idx r g b => exact (command_none hl hf).trans (setPixelEffect_consume idx ⟨r, g, b⟩ s)
  | fill color => rw [exec, execFill, command_none hl hf]; rfl
  | getPixel idx =>
    rw [exec, execGetPixel, command_none hl hf]
    have hread : fsRead (consume s) (pixelIndex idx) = s.fs[idx.toNat]? := rfl
    rw [hread, frameStoreResult]
    cases s.fs[idx.toNat]? with
    | none => rfl
    | some color => simp only [respWord_color, respond]; rfl
  | _ => cases hi

theorem exec_next_of_isFrameStoreCommand (hi : isFrameStoreCommand i = true) (h : exec i s = .next t) (ht : t.Live) :
    s.Ready ∧ ∃ r, frameStoreResult s.cfg s.fs i = some r ∧ t = s.withResult r := by
  have hl : s.Live := (exec_next h).1
  have hf := firstFault_of_exec_live (isCommand_of_isFrameStoreCommand hi) h ht
  obtain ⟨-, hp, -, hd, -⟩ := firstFault_none.1 hf
  refine ⟨⟨hl, hp, hd (ne_init_of_isFrameStoreCommand hi)⟩, ?_⟩
  rw [exec_of_isFrameStoreCommand hi hl hf] at h
  cases hr : frameStoreResult s.cfg s.fs i with
  | none => rw [hr] at h; cases h
  | some r => rw [hr] at h; cases h; exact ⟨r, rfl, rfl⟩

/-- FS keeps its length. -/
theorem frameStoreResult_length {c : Config} {fs : List Color} {r : List Color × RespWord} (hfs : fs.length = c.n)
    (h : frameStoreResult c fs i = some r) : r.1.length = c.n := by
  have hset (idx : BitVec 16) (color : Color) : (setInRange c fs idx color).length = c.n := by
    unfold setInRange; split_ifs <;> simp [hfs]
  cases i with
  | setPixel idx color => cases h; exact hset idx color
  | setPixelChannels idx r g b => cases h; exact hset idx ⟨r, g, b⟩
  | fill color => cases h; exact List.length_replicate
  | getPixel idx => obtain ⟨color, -, rfl⟩ := Option.map_eq_some_iff.1 h; exact hfs
  | _ => cases h

/-- GET_PIXEL leaves FS (R106). -/
theorem frameStoreResult_getPixel_fst {c : Config} {fs : List Color} {idx : BitVec 16} {r : List Color × RespWord}
    (h : frameStoreResult c fs (.getPixel idx) = some r) : r.1 = fs := by
  obtain ⟨color, -, rfl⟩ := Option.map_eq_some_iff.1 h
  rfl

/-- Settles O21: what is left in FS and RESP is a function of the configuration and FS, and the rest is as it was. -/
theorem frameStoreCommandsTouchOnlyTheFrameStore : Obligations.FrameStoreCommandsTouchOnlyTheFrameStore := by
  unfold Obligations.FrameStoreCommandsTouchOnlyTheFrameStore
  intro s t i hcmd h ht
  have hi : isFrameStoreCommand i = true := by
    obtain ⟨idx, color, rfl⟩ | ⟨idx, r, g, b, rfl⟩ | ⟨color, rfl⟩ | ⟨idx, rfl⟩ := hcmd <;> rfl
  obtain ⟨hs, r, hr, rfl⟩ := exec_next_of_isFrameStoreCommand hi h ht
  refine ⟨hs, rfl, fun hm => ?_, fun _ => rfl, ?_, fun s' t' h' ht' hc hfs => ?_⟩
  · obtain ⟨hfs, hbuf⟩ := memWf_iff.1 hm
    exact memWf_iff.2 ⟨frameStoreResult_length hfs hr, hbuf⟩
  · rintro ⟨idx, rfl⟩
    exact frameStoreResult_getPixel_fst hr
  · obtain ⟨-, r', hr', rfl⟩ := exec_next_of_isFrameStoreCommand hi h' ht'
    rw [hc, hfs, hr] at hr'
    cases hr'
    exact ⟨rfl, rfl⟩

/-! ## Each command where it executes -/

/-- A command that reads at no index executes in every Ready state. -/
theorem exec_of_unchecked {r : List Color × RespWord} (hi : isFrameStoreCommand i = true) (hs : s.Ready)
    (hw : i.wellFormed s.cfg = true) (hc : checkedIndex i = none) (hr : frameStoreResult s.cfg s.fs i = some r) :
    exec i s = .next (s.withResult r) := by
  have hf : firstFault i s = none :=
    firstFault_of_ready hs hw (ne_init_of_isFrameStoreCommand hi) fun idx h => by cases hc.symm.trans h
  rw [exec_of_isFrameStoreCommand hi hs.1 hf, hr]
  rfl

theorem exec_setPixel (idx : BitVec 16) (color : Color) (hs : s.Ready) :
    exec (.setPixel idx color) s = .next (s.withResult (setInRange s.cfg s.fs idx color, 0x01000000#32)) :=
  exec_of_unchecked rfl hs rfl rfl rfl

theorem exec_setPixel_of_lt {idx : BitVec 16} (color : Color) (hs : s.Ready) (hr : idx.toNat < s.cfg.n) :
    exec (.setPixel idx color) s = .next
      { s with fs := s.fs.set idx.toNat color, cmdIn := none, resp := some 0x01000000#32 } := by
  rw [exec_setPixel idx color hs, setInRange, if_pos hr]
  rfl

theorem exec_setPixel_of_le {idx : BitVec 16} (color : Color) (hs : s.Ready) (hr : s.cfg.n ≤ idx.toNat) :
    exec (.setPixel idx color) s = .next { s with cmdIn := none, resp := some 0x01000000#32 } := by
  rw [exec_setPixel idx color hs, setInRange, if_neg hr.not_gt]
  rfl

/-- Where it executes, SET_PIXEL_CHANNELS is SET_PIXEL (R103). -/
theorem exec_setPixelChannels (idx : BitVec 16) (r g b : Byte) (hs : s.Ready) :
    exec (.setPixelChannels idx r g b) s = exec (.setPixel idx ⟨r, g, b⟩) s :=
  (exec_of_unchecked rfl hs rfl rfl rfl).trans (exec_setPixel idx ⟨r, g, b⟩ hs).symm

theorem exec_fill (color : Color) (hs : s.Ready) : exec (.fill color) s = .next
    { s with fs := List.replicate s.cfg.n color, cmdIn := none, resp := some 0x01000000#32 } :=
  exec_of_unchecked (r := (List.replicate s.cfg.n color, 0x01000000#32)) rfl hs rfl rfl rfl

theorem exec_getPixel {idx : BitVec 16} {color : Color} (hs : s.Ready) (hg : s.cfg.hasGetter = true)
    (hr : idx.toNat < s.cfg.n) (hread : s.fs[idx.toNat]? = some color) : exec (.getPixel idx) s = .next
      { s with cmdIn := none, resp := some (0x02#8 ++ color.r ++ color.g ++ color.b) } := by
  have hf : firstFault (.getPixel idx) s = none := by
    refine firstFault_of_ready hs hg nofun fun j hj => ?_
    cases hj
    exact indexInRange_eq_true.2 hr
  rw [exec_of_isFrameStoreCommand rfl hs.1 hf, frameStoreResult, hread]
  rfl

theorem exec_getPixel_of_le {idx : BitVec 16} (hs : s.Ready) (hg : s.cfg.hasGetter = true) (hr : s.cfg.n ≤ idx.toNat) :
    exec (.getPixel idx) s = .next
      { s with blkFault := 0x10#32, faultCmd := commandWord (.getPixel idx), cmdIn := none } := by
  exact exec_of_firstFault rfl hs.1
    (firstFault_of_index_out_of_range (i := .getPixel idx) hs hg rfl (indexInRange_eq_false.2 hr))

/-! ## The obligations, command by command -/

open Sys2Proof.Laws.EncodesIntoItsRow (setPixel_spells setPixelChannels_spells fill_spells getPixel_spells)

/-- Settles O17: the word, then the effect on either side of N, then the two faults that are left to a setter. -/
theorem setPixelWritesOrIgnores : Obligations.SetPixelWritesOrIgnores := by
  unfold Obligations.SetPixelWritesOrIgnores
  refine ⟨fun idx color => ?_, fun idx color => commonFaults rfl nofun, fun s idx color => ⟨?_, ?_, ?_⟩⟩
  · exact ⟨_, rfl, beq_iff_eq.1 (setPixel_spells idx color), idxOf_cmdWord .., colorOf_cmdWord ..⟩
  · exact exec_setPixel_of_lt color
  · exact exec_setPixel_of_le color
  · exact fun t => exec_blkFault_of_unchecked rfl nofun rfl

/-- Settles O18: where the command executes it is SET_PIXEL. -/
theorem setPixelChannelsWritesOrIgnores : Obligations.SetPixelChannelsWritesOrIgnores := by
  unfold Obligations.SetPixelChannelsWritesOrIgnores
  refine ⟨fun idx r g b => ?_, fun idx r g b => commonFaults rfl nofun, fun s idx r g b => ⟨?_, ?_, ?_, ?_, ?_⟩⟩
  · exact ⟨_, rfl, beq_iff_eq.1 (setPixelChannels_spells idx ⟨r, g, b⟩), idxOf_cmdWord .., colorOf_cmdWord ..⟩
  · exact fun hs hr => (exec_setPixelChannels idx r g b hs).trans (exec_setPixel_of_lt ⟨r, g, b⟩ hs hr)
  · exact fun hs hr => (exec_setPixelChannels idx r g b hs).trans (exec_setPixel_of_le ⟨r, g, b⟩ hs hr)
  · exact exec_setPixel_of_le ⟨r, g, b⟩
  · exact exec_setPixelChannels idx r g b
  · exact fun t => exec_blkFault_of_unchecked rfl nofun rfl

/-- Settles O19: IDX is a field that FILL's row covers, and a store of one Color is filled by one write. -/
theorem fillSetsEveryPixel : Obligations.FillSetsEveryPixel := by
  unfold Obligations.FillSetsEveryPixel
  refine ⟨fun color => ?_, fun g w hop hidx => ?_, fun color => commonFaults rfl nofun, fun s color => ⟨?_, ?_, ?_⟩⟩
  · exact ⟨_, rfl, beq_iff_eq.1 (fill_spells color), colorOf_cmdWord ..⟩
  · refine (decodeCommand_error_iff_of_opOf (x := .fill) hop).2 (.inl fun hspells => hidx ?_)
    obtain ⟨-, -, -, hzero, -⟩ := spells_iff_fields.1 hspells
    exact hzero rfl
  · exact exec_fill color
  · intro hs hn hlen
    have hfill : List.replicate s.cfg.n color = s.fs.set 0 color := by
      obtain ⟨c, hc⟩ := List.length_eq_one_iff.1 hlen
      rw [hn, hc]; rfl
    rw [exec_fill color hs, exec_setPixel_of_lt color hs (by rw [hn]; decide), hfill]
    rfl
  · exact fun t => exec_blkFault_of_unchecked rfl nofun rfl

/-- Settles O20: a store of N Colors has the one read; out of range, or without a getter, a check of R207 applies. -/
theorem getPixelReadsOrFaults : Obligations.GetPixelReadsOrFaults := by
  unfold Obligations.GetPixelReadsOrFaults
  refine ⟨fun idx => ?_, fun w hop => ?_, fun idx => commonFaults rfl nofun, fun s idx => ⟨?_, ?_, ?_⟩⟩
  · exact ⟨_, rfl, beq_iff_eq.1 (getPixel_spells idx), idxOf_cmdWord ..⟩
  · exact (decodeCommand_error_iff_of_opOf (x := .getPixel) hop).2 (.inr ⟨rfl, rfl⟩)
  · intro hs hm hg hr
    obtain ⟨color, hread⟩ := fsRead_isSome hm hr
    exact ⟨color, hread, exec_getPixel hs hg hr hread⟩
  · exact exec_getPixel_of_le
  · exact fun hl hg => exec_of_firstFault rfl hl (firstFault_of_not_wellFormed (i := .getPixel idx) hg)

end Sys2Proof.Machine
end

section
/-! The packed word of a Color (R120) and the entries of an encoded frame (R121 to R123). -/

namespace Sys2Proof.Machine

/-- No bit of a byte is shifted out of the 24-bit word. -/
theorem toNat_setWidth_shiftLeft (b : Byte) {k : Nat} (hk : 8 + k ≤ 24) :
    (b.setWidth 24 <<< k).toNat = b.toNat <<< k := by
  rw [BitVec.toNat_shiftLeft, BitVec.toNat_setWidth_of_le (by decide), Nat.mod_eq_of_lt]
  exact (Nat.shiftLeft_lt b.isLt).trans_le (Nat.pow_le_pow_right (by decide) hk)

/-- The wire word is the three bytes side by side, green on top (R120). -/
theorem pack24_eq_append (c : Color) : pack24 c = c.g ++ c.r ++ c.b := by
  apply BitVec.eq_of_toNat_eq
  calc (pack24 c).toNat = c.g.toNat <<< 16 ||| c.r.toNat <<< 8 ||| c.b.toNat := by
        rw [pack24, BitVec.toNat_or, BitVec.toNat_or, toNat_setWidth_shiftLeft c.g (by decide),
          toNat_setWidth_shiftLeft c.r (by decide), BitVec.toNat_setWidth_of_le (by decide)]
    _ = (c.g ++ c.r ++ c.b).toNat := by
        rw [BitVec.toNat_append, BitVec.toNat_append, Nat.shiftLeft_or_distrib, ← Nat.shiftLeft_add]

/-- The value of a word with a byte below it. -/
theorem toNat_append_byte {n : Nat} (x : BitVec n) (b : Byte) : (x ++ b).toNat = x.toNat * 256 + b.toNat := by
  rw [BitVec.toNat_append, ← Nat.shiftLeft_add_eq_or_of_lt b.isLt, Nat.shiftLeft_eq]

/-- Settles O23: the concatenation has its parts as fields, and its value is theirs, byte by byte. -/
theorem packIsGreenRedBlue : Obligations.PackIsGreenRedBlue := by
  unfold Obligations.PackIsGreenRedBlue
  intro c
  refine ⟨rfl, ?_, ?_, ?_, ?_⟩ <;> rw [pack24_eq_append]
  · exact (BitVec.extractLsb'_append_eq_of_le (by decide)).trans BitVec.extractLsb'_append_eq_left
  · exact (BitVec.extractLsb'_append_eq_of_le (by decide)).trans BitVec.extractLsb'_append_eq_right
  · exact BitVec.extractLsb'_append_eq_right
  · rw [toNat_append_byte, toNat_append_byte]
    omega

/-- Every pixel has 24 entries, so whole pixels can be dropped before or after the encoding. -/
theorem drop_flatMap_pixelPulses (c : Config) (fs : List Color) (p : Nat) :
    (fs.flatMap (pixelPulses c)).drop (24 * p) = (fs.drop p).flatMap (pixelPulses c) := by
  induction fs generalizing p with
  | nil => simp
  | cons x xs ih =>
    cases p with
    | zero => rfl
    | succ p =>
      rw [List.flatMap_cons, Nat.mul_succ, Nat.add_comm, ← List.drop_drop, List.drop_left' (pixelPulses_length c x), ih,
        List.drop_succ_cons]

/-- Entry `24 p + k` of the data is entry `k` of pixel `p` (R121). -/
theorem flatMap_pixelPulses_getElem? (c : Config) {fs : List Color} {p k : Nat} {color : Color}
    (hp : fs[p]? = some color) (hk : k < 24) :
    (fs.flatMap (pixelPulses c))[24 * p + k]? = some (pulse c ((pack24 color).getLsbD (23 - k))) := by
  obtain ⟨hlt, rfl⟩ := List.getElem?_eq_some_iff.1 hp
  rw [← List.getElem?_drop, drop_flatMap_pixelPulses, List.drop_eq_getElem_cons hlt, List.flatMap_cons,
    List.getElem?_append_left (by rwa [pixelPulses_length]), pixelPulses_getElem? c _ hk]

/-- The data of an encoded frame comes first. -/
theorem enc_getElem?_of_lt {c : Config} {fs : List Color} (h : fs.length = c.n) {j : Nat} (hj : j < 24 * c.n) :
    (enc c fs)[j]? = (fs.flatMap (pixelPulses c))[j]? :=
  List.getElem?_append_left (by rw [flatMap_pixelPulses_length, h]; omega)

/-- After the data, an encoded frame reads 0 (R122). -/
theorem enc_getElem?_gap {c : Config} {fs : List Color} (h : fs.length = c.n) {j : Nat} (hj : j < c.r) :
    (enc c fs)[c.dataLen + j]? = some 0 := by
  rw [← List.getElem?_drop, enc_drop h, List.getElem?_replicate_of_lt hj]

/-- Settles O24: an entry of the data lies in the block of one pixel, and the gap follows the data. -/
theorem encodedEntryIsThePulseOfItsBit : Obligations.EncodedEntryIsThePulseOfItsBit := by
  unfold Obligations.EncodedEntryIsThePulseOfItsBit
  intro c fs hfs
  have data_len : 24 * c.n = c.dataLen := Nat.mul_comm ..
  refine ⟨?_, fun j color hj hp => ?_, fun j hj => ?_⟩
  · rw [enc_length hfs, data_len, Config.len]
  · have entry := flatMap_pixelPulses_getElem? c hp (Nat.mod_lt j (by decide))
    rw [Nat.div_add_mod] at entry
    exact (enc_getElem?_of_lt hfs hj).trans entry
  · rw [data_len]
    exact enc_getElem?_gap hfs hj

end Sys2Proof.Machine
end

section
/-! The phase graph (R141): which instruction and which step change PHASE, and from where to where. -/

namespace Sys2Proof

theorem phaseInstr_of_phase? {i : Instr} {p : Phase} (h : i.phase? = some p) : phaseInstr p = .ok i := by
  cases i with
  | init | setPixel | setPixelChannels | fill | transmit | getPixel | timerPeriod | engineService => cases h
  | _ => cases h; rfl

end Sys2Proof

namespace Sys2Proof.Machine

variable {i : Instr} {s t : State}

/-- The phases from which the graph leads back to IDLE. -/
theorem phaseEdge_idle {p : Phase} (h : phaseEdge p .idle = true) : p = .tmrDisable ∨ p = .abort := by
  cases p with
  | tmrDisable => exact .inl rfl
  | abort => exact .inr rfl
  | _ => cases h

@[simp] theorem hostMove_phase (s : State) : (hostMove s).phase = s.phase := by
  obtain h | ⟨-, h⟩ | ⟨w, ws, -, -, -, -, h⟩ := hostMove_cases s <;> rw [h]

@[simp] theorem secondMove_phase (s : State) : (secondMove s).phase = s.phase := by
  obtain h | ⟨w, ws, -, -, h⟩ := secondMove_cases s <;> rw [h]

/-- An instruction keeps PHASE, or is TRANSMIT in IDLE, or is the step of its own phase and follows an edge. -/
theorem exec_phase (h : exec i s = .next t) :
    t.phase = s.phase ∨ (i = .transmit ∧ s.phase = .idle ∧ t.phase = .encode) ∨
      (i.phase? = some s.phase ∧ phaseEdge s.phase t.phase = true) := by
  cases (exec_next h).2 with
  | transmit hf => exact .inr (.inl ⟨rfl, (firstFault_none.1 hf).2.1, rfl⟩)
  | encode hp | engDisable hp | engLoad hp | engEnable hp | tmrEnable hp | waitDone hp | waitAbort hp | clearTc hp
  | tmrDisable hp | abort hp => exact .inr (.inr (by rw [hp]; exact ⟨rfl, rfl⟩))
  | _ => exact .inl (by simp)

/-- A command presented in flight leaves PHASE (R154). -/
theorem exec_phase_of_isCommand (hi : i.isCommand = true) (hp : s.phase ≠ .idle) (h : exec i s = .next t) :
    t.phase = s.phase := by
  obtain hkeep | ⟨-, hidle, -⟩ | ⟨hown, -⟩ := exec_phase h
  · exact hkeep
  · exact absurd hidle hp
  · cases hi.symm.trans (isCommand_of_phase? hown)

/-- WAIT is left for CLEAR_TC when TC is 1, and for ABORT by the failed poll that meets the bound (R148). -/
theorem exec_leaves_wait (h : exec i s = .next t) (hp : s.phase = .wait) (hne : t.phase ≠ s.phase) :
    (t.phase = .clearTc ∧ s.tc = true) ∨
      (t.phase = .abort ∧ s.tc = false ∧ s.cfg.waitBound = some (s.polls + 1)) := by
  cases (exec_next h).2 with
  | waitDone _ ht => exact .inl ⟨rfl, ht⟩
  | waitAbort _ ht hb hn => exact .inr ⟨rfl, ht, hn ▸ hb⟩
  | transmit hf => cases hp.symm.trans (firstFault_none.1 hf).2.1
  | encode hq | engDisable hq | engLoad hq | engEnable hq | tmrEnable hq | clearTc hq | tmrDisable hq | abort hq =>
    cases hp.symm.trans hq
  | _ => exact absurd (by simp) hne

/-- A step keeps PHASE, or starts a transmission, or is the controller's move along an edge of the graph. -/
theorem step_phase (h : step s = .next t) :
    t.phase = s.phase ∨ (s.phase = .idle ∧ t.phase = .encode) ∨
      (s.cmdIn = none ∧ nextAgent s = .controller ∧ phaseEdge s.phase t.phase = true ∧
        ∃ i, phaseInstr s.phase = .ok i ∧ exec i (advance s) = .next t) := by
  obtain ⟨-, ⟨w, -, ⟨i, hd, h⟩ | ⟨r, -, rfl⟩⟩ | ⟨hn, h⟩⟩ := step_next h
  · obtain hkeep | ⟨-, hstart⟩ | ⟨hown, -⟩ := exec_phase h
    · exact .inl hkeep
    · exact .inr (.inl hstart)
    · cases (isCommand_of_decodeCommand hd).symm.trans (isCommand_of_phase? hown)
  · exact .inl rfl
  · obtain ⟨-, rfl⟩ | ⟨-, rfl⟩ | ⟨-, -, rfl⟩ | ⟨ha, i, hi, h⟩ | ⟨-, h⟩ | ⟨-, h⟩ := h
    · exact .inl (by simp)
    · exact .inl (by simp)
    · exact .inl rfl
    · exact (exec_phase h).imp_right (Or.imp And.right fun ⟨_, hedge⟩ => ⟨hn, ha, hedge, i, hi, h⟩)
    · exact .inl ((exec_phase h).resolve_right (by simp [Instr.phase?]))
    · exact .inl ((exec_phase h).resolve_right (by simp [Instr.phase?]))

/-- Settles O34: an instruction that changes PHASE is TRANSMIT in IDLE or the phase's own step, and of the phases only
WAIT has two ways on. -/
theorem phaseGraphIsAllTheTransitions : Obligations.PhaseGraphIsAllTheTransitions := by
  unfold Obligations.PhaseGraphIsAllTheTransitions
  refine ⟨fun i s t h hne => ?_, fun s t h => ?_⟩
  · have wait_clearTc (hw : s.phase = .wait) (ht : t.phase = .clearTc) : s.tc = true := by
      simpa [ht] using exec_leaves_wait h hw hne
    have wait_abort (hw : s.phase = .wait) (ht : t.phase = .abort) :
        s.tc = false ∧ s.cfg.waitBound = some (s.polls + 1) := by
      simpa [ht] using exec_leaves_wait h hw hne
    obtain ⟨hi, hp, ht⟩ | ⟨hown, hedge⟩ := (exec_phase h).resolve_left hne
    · exact ⟨by rw [hp, ht]; rfl, fun _ => hi, fun hq => absurd hp hq, wait_clearTc, wait_abort⟩
    · refine ⟨hedge, fun hp => ?_, fun _ => hown, wait_clearTc, wait_abort⟩
      rw [hp] at hown
      cases phaseInstr_of_phase? hown
  · obtain hkeep | ⟨hp, ht⟩ | ⟨-, -, hedge, -⟩ := step_phase h
    · exact .inl hkeep
    · exact .inr (by rw [hp, ht]; rfl)
    · exact .inr hedge

end Sys2Proof.Machine
end

section
/-! Commands presented while a transmission is in flight (R154, R205). -/

namespace Sys2Proof

/-- What decodes exists in the configuration (R105). -/
theorem wellFormed_of_decodeCommand {c : Config} {w : CmdWord} {i : Instr}
    (h : decodeCommand c.hasGetter w = .ok i) : i.wellFormed c = true := by
  obtain ⟨x, -, rfl⟩ := decodeCommand_ok h
  obtain ⟨hg, -⟩ := decodeCommand_eq_build_iff.1 h
  cases x with
  | getPixel => exact (by simpa using hg : c.hasGetter = true)
  | _ => rfl

end Sys2Proof

namespace Sys2Proof.Machine

variable {i : Instr} {s : State} {w : CmdWord}

/-- A presented word that decodes is its instruction (R80, R207). -/
theorem presentWord_of_ok (h : decodeCommand s.cfg.hasGetter w = .ok i) : presentWord w s = exec i s := by
  simp [presentWord, fetchWord, h]

/-- Every legal word presented outside IDLE records BUSY, and nothing else happens (R205). -/
theorem presentWord_of_busy (hl : s.Live) (hp : s.phase ≠ .idle) (h : decodeCommand s.cfg.hasGetter w = .ok i) :
    presentWord w s = .next { s with blkFault := 0x08#32, faultCmd := w, cmdIn := none } := by
  rw [presentWord_of_ok h, exec_of_firstFault (isCommand_of_decodeCommand h) hl
    (firstFault_of_busy (wellFormed_of_decodeCommand h) hp), commandWord_of_decodeCommand h]
  rfl

/-- Settles O35: only two edges of the phase graph lead to IDLE, and BUSY is the first check that a legal word meets. -/
theorem transmissionCannotBeCancelled : Obligations.TransmissionCannotBeCancelled := by
  unfold Obligations.TransmissionCannotBeCancelled
  refine ⟨fun s t h hp ht => ?_, fun s w i => presentWord_of_busy⟩
  obtain hkeep | ⟨hidle, -⟩ | ⟨hn, ha, hedge, i, hi, hx⟩ := step_phase h
  · exact absurd (hkeep.symm.trans ht) hp
  · exact absurd hidle hp
  · refine ⟨hn, ha, ?_⟩
    rw [ht] at hedge
    obtain hq | hq := phaseEdge_idle hedge
    · rw [hq] at hi; cases hi
      exact .inl ⟨hq, hx⟩
    · rw [hq] at hi; cases hi
      exact .inr ⟨hq, hx⟩

end Sys2Proof.Machine
end

section
/-! TRANSMIT and the controller's steps that fill the buffer and end a transmission (R142, R143, R149 to R151). -/

namespace Sys2Proof.Machine

variable {s : State}

theorem exec_transmit (hs : s.Ready) : exec .transmit s = .next
    { s with polls := if s.cfg.waitBound.isSome then 0 else s.polls, phase := .encode, cmdIn := none } := by
  have hf : firstFault .transmit s = none := firstFault_of_ready hs rfl nofun nofun
  rw [exec, execTransmit, command_none hs.1 hf, clearPolls_eq]
  rfl

/-- TRANSMIT's row has no operand: its mask covers the word (R85). -/
theorem eq_of_spells_transmit {w : CmdWord} (h : Cmd.spells .transmit w = true) : w = 0x0500000000000000#64 :=
  calc w = w &&& Cmd.mask .transmit := BitVec.and_allOnes.symm
    _ = 0x0500000000000000#64 := beq_iff_eq.1 h

/-- Settles O27: the word, then the effect in a Ready state, the two common faults, and the other words with its
opcode. -/
theorem transmitStartsATransmission : Obligations.TransmitStartsATransmission := by
  unfold Obligations.TransmitStartsATransmission
  refine ⟨rfl, fun s => ⟨exec_transmit, ?_, ?_, fun g w hop hne => ?_⟩⟩
  · exact (commonFaults (i := .transmit) rfl nofun s rfl).1
  · exact (commonFaults (i := .transmit) rfl nofun s rfl).2
  · exact (decodeCommand_error_iff_of_opOf (x := .transmit) hop).2 (.inl fun h => hne (eq_of_spells_transmit h))

theorem exec_encode (hl : s.Live) (hp : s.phase = .encode) :
    exec .encode s = .next { s with buf := enc s.cfg s.fs, phase := .engDisable } :=
  execEncode_next.2 ⟨hl, .inl ⟨hp, rfl⟩⟩

/-- Settles O28: the buffer is then the encoding of the Frame Store, and the stores keep their lengths. -/
theorem encodeFillsTheBuffer : Obligations.EncodeFillsTheBuffer := by
  unfold Obligations.EncodeFillsTheBuffer
  refine ⟨rfl, fun s hl hp => ⟨exec_encode hl hp, fun hm t h j hj => ?_⟩⟩
  rw [exec_encode hl hp] at h
  cases h
  exact ⟨rfl, Option.isSome_iff_exists.2 (memRead_isSome (memWriteAll_enc_memWf hm) hj)⟩

/-- Settles O31: in its phase, a controller step is its effect. -/
theorem clearTcClearsTheFlag : Obligations.ClearTcClearsTheFlag := by
  unfold Obligations.ClearTcClearsTheFlag
  exact ⟨rfl, fun s hl hp => execClearTc_next.2 ⟨hl, .inl ⟨hp, rfl⟩⟩⟩

/-- Settles O32: in its phase, a controller step is its effect; the response is KIND 3 with payload 0 (R88). -/
theorem tmrDisableEndsTheTransmission : Obligations.TmrDisableEndsTheTransmission := by
  unfold Obligations.TmrDisableEndsTheTransmission
  exact ⟨rfl, fun s hl hp => execTmrDisable_next.2 ⟨hl, .inl ⟨hp, rfl⟩⟩⟩

/-- Settles O33: in its phase, a controller step is its effect; the response is KIND 3 with payload 1 (R88). -/
theorem abortForcesEverythingOff : Obligations.AbortForcesEverythingOff := by
  unfold Obligations.AbortForcesEverythingOff
  exact ⟨rfl, fun s hl hp => execAbort_next.2 ⟨hl, .inl ⟨hp, rfl⟩⟩⟩

end Sys2Proof.Machine
end

section
/-! The boundary contract (R174). -/

namespace Sys2Proof.Machine

variable {i : Instr} {s t : State}

/-- The boundary contract as every step keeps it: what INIT configured, once it has run (the part `after` of State.Inv). -/
def State.Contract (s : State) : Prop := s.initDone = true → s.Configured

/-- The contract depends on what INIT writes alone: the two EN bits, which INIT keeps (R170), are free. -/
theorem State.Contract.of_eq (h : s.Contract) (hc : t.cfg = s.cfg) (hd : t.initDone = s.initDone)
    (hpin : t.pinMode = s.pinMode) (hper : t.tmrPeriod = s.tmrPeriod)
    (htmr : { t.tmrCtrl with en := s.tmrCtrl.en } = s.tmrCtrl) (heng : { t.engCfg with en := s.engCfg.en } = s.engCfg)
    (hsrc : t.engSrc = s.engSrc) (hdst : t.engDst = s.engDst) : t.Contract := by
  intro ht
  have hs : s.Configured := h (hd ▸ ht)
  rw [State.Configured, ← htmr, ← heng] at hs
  rwa [State.Configured, hc, hpin, hper, hsrc, hdst]

theorem State.Contract.hostMove (h : s.Contract) : (hostMove s).Contract := by
  obtain he | ⟨-, he⟩ | ⟨w, ws, -, -, -, -, he⟩ := hostMove_cases s <;> rw [he] <;> exact h

theorem State.Contract.secondMove (h : s.Contract) : (secondMove s).Contract := by
  obtain he | ⟨w, ws, -, -, he⟩ := secondMove_cases s <;> rw [he] <;> exact h

/-- INIT writes the whole contract. -/
theorem configured_configure (s : State) : (configure s).Configured :=
  ⟨rfl, rfl, rfl, rfl, rfl, rfl, rfl, rfl, rfl, rfl, rfl, rfl⟩

/-- INIT makes the contract hold; every other instruction writes no register of it but the two EN bits. -/
theorem exec_contract (hs : s.Contract) (h : exec i s = .next t) : t.Contract := by
  cases (exec_next h).2 with
  | init => exact fun _ => configured_configure (consume s)
  | _ => exact hs.of_eq (by simp) (by simp) (by simp) (by simp) (by simp) (by simp) (by simp) (by simp)

theorem step_contract (hs : s.Contract) (h : step s = .next t) : t.Contract :=
  step_keeps (P := State.Contract) (fun _ _ _ => exec_contract) (fun _ _ h => h) (fun _ h => h)
    (fun _ => .hostMove) (fun _ => .secondMove) hs h

theorem reachable_contract (h : Reachable s) : s.Contract :=
  reachable_induction (fun _ _ _ _ _ _ => nofun) (fun _ _ => step_contract) h

/-- Settles O49: nothing is owed before INIT, INIT writes the contract, and every other step leaves it. -/
theorem boundaryContractNeverChanges : Obligations.BoundaryContractNeverChanges := by
  unfold Obligations.BoundaryContractNeverChanges
  intro s hs hd
  obtain ⟨-, hper, -, -, -, hdir, hcirc, -, -, hsize, hsrc, hdst⟩ := reachable_contract hs hd
  exact ⟨hper, hsize, hdir, hcirc, hsrc, hdst⟩

end Sys2Proof.Machine
end

section
/-! INIT (R170, R171). -/

namespace Sys2Proof

/-- A row whose mask covers the word is spelled by its match alone (R85). -/
theorem Cmd.eq_pat_of_spells {x : Cmd} {w : CmdWord} (hm : x.mask = BitVec.allOnes 64) (h : x.spells w = true) :
    w = x.pat :=
  calc w = w &&& x.mask := by rw [hm, BitVec.and_allOnes]
    _ = x.pat := beq_iff_eq.1 h

end Sys2Proof

namespace Sys2Proof.Machine

variable {s : State}

/-- A Fresh state passes every check on INIT (R207). -/
theorem firstFault_init_of_fresh (hs : s.Fresh) : firstFault .init s = none := by
  obtain ⟨-, hp, hd⟩ := hs
  exact firstFault_none.2 ⟨rfl, hp, fun _ => hd, fun h => absurd rfl h, nofun⟩

theorem exec_init (hs : s.Fresh) : exec .init s = .next (respond .ack 0 (configure (consume s))) :=
  execInit_next.2 ⟨hs.1, .inr ⟨firstFault_init_of_fresh hs, rfl⟩⟩

/-- DOUBLE_INIT is the check that INIT alone meets (R204, R207). -/
theorem firstFault_init_of_initDone (hp : s.phase = .idle) (hd : s.initDone = true) :
    firstFault .init s = some .doubleInit := by
  simp [firstFault, Instr.wellFormed, hp, hd]

/-! What INIT makes of the registers that reset left 0 (R170's values in EX). -/

theorem engCfgWord_initEngCfg_resetOf (c : Config) (head : Nat → Elem) :
    engCfgWord (initEngCfg (State.resetOf c head).engCfg) = 0x190#32 := by
  simp [engCfgWord, initEngCfg, State.resetOf, flagBit, sizeCode, Config.elemWidth]

theorem tmrCtrlWord_initTmrCtrl_resetOf (c : Config) (head : Nat → Elem) :
    tmrCtrlWord (initTmrCtrl (State.resetOf c head).tmrCtrl) = 0x6#32 := by
  simp [tmrCtrlWord, initTmrCtrl, State.resetOf, flagBit]

theorem period_ex : Config.ex.period = 60 := by decide

/-- Settles O15: the word, the effect in a Fresh state, the fault of a second INIT, the other words with its opcode, and
the effect in EX from reset. -/
theorem initConfiguresTheBlock : Obligations.InitConfiguresTheBlock := by
  unfold Obligations.InitConfiguresTheBlock
  refine ⟨rfl, fun s => exec_init, fun s hl hp hd => ?_, fun g w hop hne => ?_, fun head => ?_⟩
  · exact exec_of_firstFault rfl hl (firstFault_init_of_initDone hp hd)
  · exact (decodeCommand_error_iff_of_opOf (x := .init) hop).2 (.inl fun h => hne (Cmd.eq_pat_of_spells rfl h))
  · exact ⟨_, exec_init ⟨rfl, rfl, rfl⟩, rfl, engCfgWord_initEngCfg_resetOf _ head,
      tmrCtrlWord_initTmrCtrl_resetOf _ head, congrArg (BitVec.ofNat 16) period_ex, rfl⟩

end Sys2Proof.Machine
end

section
/-! The chain of checks on a presented word (R207), and the block after a fault (R201). -/

namespace Sys2Proof.Machine

variable {i : Instr} {s t : State} {w : CmdWord}

/-! ## A presented word -/

/-- GET_PIXEL is the only command whose index is checked (R206). -/
theorem eq_getPixel_of_checkedIndex {idx : BitVec 16} (h : checkedIndex i = some idx) : i = .getPixel idx := by
  cases i with
  | getPixel => cases h; rfl
  | _ => cases h

/-- The first check that applies to a presented word records its fault for that word, and nothing else (R207). -/
theorem presentWord_of_firstFault {code : FaultCode} (hl : s.Live) (h : decodeCommand s.cfg.hasGetter w = .ok i)
    (hf : firstFault i s = some code) :
    presentWord w s = .next { s with blkFault := 1#32 <<< faultBit code, faultCmd := w, cmdIn := none } := by
  rw [presentWord_of_ok h, exec_of_firstFault (isCommand_of_decodeCommand h) hl hf, commandWord_of_decodeCommand h]

/-! ## A command that passes every check -/

/-- A command that passes every check has a next state: only GET_PIXEL reads a store, in range of one of N Colors. -/
theorem exists_exec_next_of_firstFault_none (hi : i.isCommand = true) (hl : s.Live) (hf : firstFault i s = none)
    (hm : s.memWf = true) : ∃ t, exec i s = .next t := by
  cases i with
  | init => exact ⟨_, execInit_next.2 ⟨hl, .inr ⟨hf, rfl⟩⟩⟩
  | setPixel idx color => exact ⟨_, execSetPixel_next.2 ⟨hl, .inr ⟨hf, rfl⟩⟩⟩
  | setPixelChannels idx r g b => exact ⟨_, execSetPixelChannels_next.2 ⟨hl, .inr ⟨hf, rfl⟩⟩⟩
  | fill color => exact ⟨_, execFill_next.2 ⟨hl, .inr ⟨hf, rfl⟩⟩⟩
  | transmit => exact ⟨_, execTransmit_next.2 ⟨hl, .inr ⟨hf, rfl⟩⟩⟩
  | getPixel idx =>
    obtain ⟨-, -, -, -, hrange⟩ := firstFault_none.1 hf
    obtain ⟨color, hread⟩ := fsRead_isSome hm (indexInRange_eq_true.1 (hrange idx rfl))
    exact ⟨_, execGetPixel_next.2 ⟨hl, .inr ⟨hf, color, hread, rfl⟩⟩⟩
  | _ => cases hi

/-- A command that passes every check records no fault and consumes its word (R41). -/
theorem exec_live_of_firstFault_none (hi : i.isCommand = true) (hf : firstFault i s = none) (h : exec i s = .next t) :
    t.Live ∧ t.cmdIn = none := by
  obtain ⟨hl, ht⟩ := exec_next h
  cases ht with
  | hold hn => cases hi.symm.trans hn
  | fault _ hs => cases hf.symm.trans hs
  | init | setPixel | setPixelIgnored | setPixelChannels | setPixelChannelsIgnored | fill | transmit | getPixel =>
    exact ⟨by simp [State.Live, hl], by simp⟩
  | _ => cases hi

/-- Settles O11: each test of the chain, where those before it have failed, is the first check that applies; where all
have failed none applies. -/
theorem presentedWordIsCheckedInOrder : Obligations.PresentedWordIsCheckedInOrder := by
  unfold Obligations.PresentedWordIsCheckedInOrder
  intro s w hl
  cases hd : decodeCommand s.cfg.hasGetter w with
  | error r => exact (presentWord_of_error hd).trans (by rw [raiseFault_of_live hl]; rfl)
  | ok i =>
    have hw : i.wellFormed s.cfg = true := wellFormed_of_decodeCommand hd
    have hi : i.isCommand = true := isCommand_of_decodeCommand hd
    dsimp only
    by_cases idle : s.phase = .idle
    case neg => rw [if_pos idle]; exact presentWord_of_busy hl idle hd
    rw [if_neg (not_not.2 idle)]
    split_ifs with double uninit range
    · obtain ⟨rfl, hdone⟩ := double
      exact presentWord_of_firstFault hl hd (firstFault_init_of_initDone idle hdone)
    · obtain ⟨hne, hdone⟩ := uninit
      exact presentWord_of_firstFault hl hd (firstFault_of_not_initDone hw idle hne hdone)
    · obtain ⟨idx, rfl, hr⟩ := range
      have hs : s.Ready := ⟨hl, idle, by simpa using uninit⟩
      exact presentWord_of_firstFault hl hd
        (firstFault_of_index_out_of_range hs hw rfl (indexInRange_eq_false.2 hr))
    · have hf : firstFault i s = none := by
        refine firstFault_none.2 ⟨hw, idle, by simpa using double, by simpa using uninit, fun idx hc => ?_⟩
        obtain rfl := eq_getPixel_of_checkedIndex hc
        exact indexInRange_eq_true.2 (not_le.1 fun hr => range ⟨idx, rfl, hr⟩)
      refine ⟨presentWord_of_ok hd, fun hm => ?_⟩
      obtain ⟨t, ht⟩ := exists_exec_next_of_firstFault_none hi hl hf hm
      exact ⟨t, ht, exec_live_of_firstFault_none hi hf ht⟩

/-! ## After a fault -/

/-- Every instruction's meaning stands behind the test for a recorded fault (R201). -/
theorem exec_of_not_live (i : Instr) (h : ¬ s.Live) : exec i s = .fault .quiescent := by
  cases i <;> exact whenLive_faulted h _

theorem step_of_not_live (h : ¬ s.Live) : step s = .fault .quiescent := by
  simp [step, fetch, h]

/-- Settles O12: raiseFault by its definition, the five bits, then the quiescence of a faulted block. -/
theorem faultedBlockIsQuiescent : Obligations.FaultedBlockIsQuiescent := by
  unfold Obligations.FaultedBlockIsQuiescent
  refine ⟨fun code w s => ⟨rfl, not_live_raiseFault code w s⟩, rfl, fun s hs => ?_⟩
  refine ⟨step_of_not_live hs, fun i => exec_of_not_live i hs, fun hend => ?_⟩
  obtain ⟨-, -, -, -, -, -, hl⟩ := hend
  exact hs hl

end Sys2Proof.Machine
end

section
/-! What reset alone clears: the fault record and INIT_DONE (R231). -/

namespace Sys2Proof.Machine

variable {i : Instr} {s t : State}

/-- Once a fault is recorded, the only run is the one of no step (R201). -/
theorem run_of_not_live {n : Nat} (hs : ¬ s.Live) (h : Sys2Proof.core.run n s = .next t) : t = s := by
  cases n with
  | zero => cases h; rfl
  | succ n =>
    obtain ⟨u, hu, -⟩ := core_run_succ.1 h
    exact absurd (step_next hu).1 hs

theorem not_live_of_getLsbD {k : Nat} (hk : s.blkFault.getLsbD k = true) : ¬ s.Live := by
  intro hl
  simp [hl] at hk

@[simp] theorem hostMove_initDone (s : State) : (hostMove s).initDone = s.initDone := by
  obtain h | ⟨-, h⟩ | ⟨w, ws, -, -, -, -, h⟩ := hostMove_cases s <;> rw [h]

@[simp] theorem secondMove_initDone (s : State) : (secondMove s).initDone = s.initDone := by
  obtain h | ⟨w, ws, -, -, h⟩ := secondMove_cases s <;> rw [h]

/-- INIT sets INIT_DONE, and no other instruction writes it. -/
theorem exec_initDone (hs : s.initDone = true) (h : exec i s = .next t) : t.initDone = true := by
  cases (exec_next h).2 with
  | init => simp
  | _ => simpa using hs

theorem step_initDone (hs : s.initDone = true) (h : step s = .next t) : t.initDone = true :=
  step_keeps (P := fun s => s.initDone = true) (fun _ _ _ => exec_initDone) (fun _ _ h => h) (fun _ h => h)
    (fun s => (hostMove_initDone s).trans) (fun s => (secondMove_initDone s).trans) hs h

/-- Settles O14: a fault record outlives every run because it ends the run, INIT_DONE is kept step by step, and the block
that reset leaves is Fresh. -/
theorem onlyResetClearsFaultsAndInitDone : Obligations.OnlyResetClearsFaultsAndInitDone := by
  unfold Obligations.OnlyResetClearsFaultsAndInitDone
  refine ⟨fun n s t h => ⟨fun k hk => ?_, fun hs => ?_, fun hd => ?_⟩, fun c head => ⟨rfl, rfl, rfl, ?_⟩⟩
  · rwa [run_of_not_live (not_live_of_getLsbD hk) h]
  · rw [run_of_not_live hs h]
  · exact run_keeps (P := fun s => s.initDone = true) (fun _ _ => step_initDone) n hd h
  · exact fun i hc hw hi => (commonFaults hc hi _ hw).2 ⟨rfl, rfl, rfl⟩

end Sys2Proof.Machine
end

section
/-! The state after reset (R230). -/

namespace Sys2Proof.Machine

theorem resetOf_gapZero (c : Config) (head : Nat → Elem) : (State.resetOf c head).GapZero :=
  boot_gapZero c head [] [] []

theorem resetOf_fs_getElem? (c : Config) (head : Nat → Elem) {k : Nat} (hk : k < c.n) :
    (State.resetOf c head).fs[k]? = some ⟨0, 0, 0⟩ :=
  List.getElem?_replicate_of_lt hk

/-- Below the gap, BUF holds the entries that reset leaves unspecified (R25). -/
theorem resetOf_buf_getElem? (c : Config) (head : Nat → Elem) {j : Nat} (hj : j < c.dataLen) :
    (State.resetOf c head).buf[j]? = some (head j) := by
  have hlen : j < ((List.range c.dataLen).map head).length := by simpa using hj
  calc (State.resetOf c head).buf[j]? = ((List.range c.dataLen).map head)[j]? := List.getElem?_append_left hlen
    _ = some (head j) := by simp [hj]

/-! A register all of whose fields are 0 reads 0 (R45). -/

theorem blkStatusWord_resetOf (c : Config) (head : Nat → Elem) : blkStatusWord (State.resetOf c head) = 0#32 := by
  simp [blkStatusWord, State.resetOf, statusBit, phaseCode, flagBit]

theorem engCfgWord_resetOf (c : Config) (head : Nat → Elem) : engCfgWord (State.resetOf c head).engCfg = 0#32 := by
  simp [engCfgWord, State.resetOf, flagBit]

theorem engFlagWord_resetOf (c : Config) (head : Nat → Elem) : engFlagWord (State.resetOf c head) = 0#32 := by
  simp [engFlagWord, State.resetOf, flagBit]

theorem tmrCtrlWord_resetOf (c : Config) (head : Nat → Elem) : tmrCtrlWord (State.resetOf c head).tmrCtrl = 0#32 := by
  simp [tmrCtrlWord, State.resetOf, flagBit]

theorem pinCfgWord_resetOf (c : Config) (head : Nat → Elem) : pinCfgWord (State.resetOf c head) = 0#32 := by
  simp [pinCfgWord, State.resetOf, flagBit]

/-- Settles O16: the two stores entry by entry, the packed registers by their words, and every other piece of state by
the definition of State.resetOf. -/
theorem resetLeavesTheValuesOfTheTable : Obligations.ResetLeavesTheValuesOfTheTable := by
  unfold Obligations.ResetLeavesTheValuesOfTheTable
  intro c head
  obtain ⟨hfs, hbuf⟩ := memWf_iff.1 (resetOf_memWf c head)
  exact ⟨rfl, hfs, fun _ => resetOf_fs_getElem? c head, hbuf, fun _ => (resetOf_gapZero c head).getElem?,
    fun _ => resetOf_buf_getElem? c head, blkStatusWord_resetOf c head, rfl, rfl, rfl, engCfgWord_resetOf c head, rfl, rfl,
    rfl, engFlagWord_resetOf c head, tmrCtrlWord_resetOf c head, rfl, rfl, pinCfgWord_resetOf c head, rfl, rfl,
    rfl, rfl, rfl, rfl⟩

end Sys2Proof.Machine
end

section
/-! Decoding undoes encoding, and encoding undoes decoding, in all three formats (R92, R21, R89). -/

namespace Sys2Proof

open Sys2Proof.Laws.EncodesIntoItsRow (setPixel_spells setPixelChannels_spells fill_spells getPixel_spells)

/-! ## Command words -/

/-- A command word that spells a row decodes to the row's instruction with the operands that the word was made of. -/
theorem decodeCommand_cmdWord {x : Cmd} {g : Bool} {op : Byte} {idx : BitVec 16} {color : Color}
    (hx : x.spells (cmdWord op idx color) = true) (hg : ¬ (x = .getPixel ∧ g = false)) :
    decodeCommand g (cmdWord op idx color) = .ok (x.build (cmdWord op idx color)) :=
  decodeCommand_eq_build_iff.2 ⟨hg, hx⟩

/-- A command that exists in the configuration is what its word decodes to. -/
theorem decodeCommand_commandWord {c : Config} {i : Instr} (hi : i.isCommand = true) (hw : i.wellFormed c = true) :
    decodeCommand c.hasGetter (commandWord i) = .ok i := by
  cases i with
  | init => exact decodeCommand_cmdWord (x := .init) (by decide) nofun
  | transmit => exact decodeCommand_cmdWord (x := .transmit) (by decide) nofun
  | setPixel idx color =>
    refine (decodeCommand_cmdWord (setPixel_spells idx color) nofun).trans ?_
    simp [Cmd.build]
  | setPixelChannels idx r g b =>
    refine (decodeCommand_cmdWord (setPixelChannels_spells idx ⟨r, g, b⟩) nofun).trans ?_
    simp [Cmd.build]
  | fill color =>
    refine (decodeCommand_cmdWord (fill_spells color) nofun).trans ?_
    simp [Cmd.build]
  | getPixel idx =>
    have hg : c.hasGetter = true := hw
    refine (decodeCommand_cmdWord (getPixel_spells idx) (by simp [hg])).trans ?_
    simp [Cmd.build]
  | _ => cases hi

theorem encode_of_isCommand {i : Instr} (hi : i.isCommand = true) : encode i = .command (commandWord i) := by
  cases i with
  | init | setPixel | setPixelChannels | fill | transmit | getPixel => rfl
  | _ => cases hi

theorem decode_encode_of_isCommand {c : Config} {i : Instr} (hi : i.isCommand = true) (hw : i.wellFormed c = true) :
    decode c.hasGetter (encode i) = .ok i := by
  rw [encode_of_isCommand hi]
  exact decodeCommand_commandWord hi hw

/-! ## Phase codes and event identifiers -/

theorem phaseOfCode_phaseCode (p : Phase) : phaseOfCode (phaseCode p) = some p := by cases p <;> rfl

/-- A code that names a phase is that phase's code (R21). -/
theorem phaseCode_of_phaseOfCode {code : BitVec 4} {p : Phase} (h : phaseOfCode code = some p) : phaseCode p = code := by
  apply BitVec.eq_of_toNat_eq
  unfold phaseOfCode at h
  split at h <;> cases h
  all_goals
    rename_i hcode
    exact hcode.symm

theorem encode_of_phase? {i : Instr} {p : Phase} (h : i.phase? = some p) : encode i = .phase (phaseCode p) := by
  cases i with
  | init | setPixel | setPixelChannels | fill | transmit | getPixel | timerPeriod | engineService => cases h
  | _ => cases h; rfl

/-- A controller step is what its phase's code decodes to. -/
theorem decode_encode_of_phase? {i : Instr} {p : Phase} (g : Bool) (h : i.phase? = some p) :
    decode g (encode i) = .ok i := by
  rw [encode_of_phase? h, decode, Machine.decodePhase_phaseCode, phaseInstr_of_phase? h]

/-- What a phase code decodes to has that code. -/
theorem encode_of_decodePhase {code : BitVec 4} {i : Instr} (h : decodePhase code = .ok i) : encode i = .phase code := by
  unfold decodePhase at h
  split at h
  next p hp => rw [encode_of_phase? (phase?_of_phaseInstr h), phaseCode_of_phaseOfCode hp]
  next => cases h

theorem encode_decodeEvent (id : BitVec 1) : encode (decodeEvent id) = .event id := by
  obtain rfl | rfl := BitVec.eq_zero_or_eq_one id <;> rfl

/-! ## The obligations -/

/-- Settles O2: a command's word spells the command's row and holds the operands at the row's fields; a controller step has
its phase's code; the two events are one bit. -/
theorem decodeOfEncodeIsIdentity : Obligations.DecodeOfEncodeIsIdentity := by
  unfold Obligations.DecodeOfEncodeIsIdentity
  intro c i hw
  cases i with
  | init | setPixel | setPixelChannels | fill | transmit | getPixel => exact decode_encode_of_isCommand rfl hw
  | timerPeriod | engineService => rfl
  | _ => exact decode_encode_of_phase? _ rfl

/-- Settles O3: format by format. -/
theorem encodeOfDecodeIsIdentity : Obligations.EncodeOfDecodeIsIdentity := by
  unfold Obligations.EncodeOfDecodeIsIdentity
  intro g e i h
  cases e with
  | command w => exact encode_of_decodeCommand h
  | phase code => exact encode_of_decodePhase h
  | event id => cases h; exact encode_decodeEvent id

/-- Settles O1: each legal word is the word of its command, and decodes to it wherever the command exists; the phase codes
and the events are evaluated. -/
theorem tableWordsDecode : Obligations.TableWordsDecode := by
  unfold Obligations.TableWordsDecode
  have decodes {g : Bool} {i : Instr} {w : CmdWord} (hw : commandWord i = w) (hi : i.isCommand = true)
      (hg : i.wellFormed { Config.ex with hasGetter := g } = true) : decodeCommand g w = .ok i :=
    hw ▸ decodeCommand_commandWord hi hg
  refine ⟨fun g => ⟨?_, ?_, ?_, ?_, ?_, ?_⟩, ?_, rfl, rfl, rfl, rfl, rfl, rfl⟩ <;> exact decodes rfl rfl rfl

namespace Machine

/-- The phase's four bits stand between three reserved bits and STATUS (R45). -/
theorem extractLsb'_blkStatusWord_phase (s : State) : (blkStatusWord s).extractLsb' 4 4 = phaseCode s.phase := by
  rw [blkStatusWord]
  exact (BitVec.extractLsb'_append_eq_of_le (by decide)).trans <|
    (BitVec.extractLsb'_append_eq_of_le (by decide)).trans BitVec.extractLsb'_append_eq_right

/-! A word of concatenated fields lies within a mask when each field does. -/

theorem append_and_allOnes {v w : Nat} {x m : BitVec v} (y : BitVec w) (h : x &&& m = x) :
    (x ++ y) &&& (m ++ BitVec.allOnes w) = x ++ y := by
  rw [BitVec.and_append, h, BitVec.and_allOnes]

theorem append_zero_and {v w : Nat} {x m : BitVec v} (h : x &&& m = x) :
    (x ++ 0#w) &&& (m ++ 0#w) = x ++ 0#w := by
  rw [BitVec.and_append, h, BitVec.and_self]

/-- Outside its three fields BLK_STATUS reads 0 (log entry 13). -/
theorem blkStatusWord_and_fields (s : State) : blkStatusWord s &&& 0x1F1#32 = blkStatusWord s :=
  append_and_allOnes (flagBit s.initDone) <| append_zero_and <| append_and_allOnes (phaseCode s.phase) <|
    append_and_allOnes (statusBit s.status) (BitVec.and_self (x := 0#23))

/-- The codes above ABORT's name no phase (R21). -/
theorem phaseOfCode_of_reserved : ∀ code : BitVec 4, 0xA ≤ code.toNat → phaseOfCode code = none := by decide

/-- Settles O6: the codes phase by phase, the reserved ones by their number, and the word field by field. -/
theorem phaseCodesNameTheSteps : Obligations.PhaseCodesNameTheSteps := by
  unfold Obligations.PhaseCodesNameTheSteps
  refine ⟨phaseOfCode_phaseCode, rfl, fun code h => ?_, fun s => ⟨?_, extractLsb'_blkStatusWord_phase s⟩, fun _ _ => rfl⟩
  · have hnone := phaseOfCode_of_reserved code h
    exact ⟨hnone, by rw [decodePhase, hnone]⟩
  · exact (blkStatusWord_and_fields s).symm

end Machine
end Sys2Proof
end

section
/-! The bits an encoded frame carries: dec undoes enc (R125), and the shape of the output (R121 to R123, R7). -/

namespace Sys2Proof.Machine

/-! ## Most-significant bit first -/

/-- The entries of a pixel come from bit 23 down to bit 0: the bits in their order, reversed. -/
theorem map_bit_range : (List.range 24).map (fun k => 23 - k) = (List.range 24).reverse := by decide

/-- A number is the sum of the powers of its bits. -/
theorem sum_two_pow_testBit (x n : Nat) :
    ((List.range n).map fun k => if x.testBit k then 2 ^ k else 0).sum = x % 2 ^ n := by
  induction n with
  | zero => simp [Nat.mod_one]
  | succ n ih =>
    have bit : (if x.testBit n then 2 ^ n else 0) = 2 ^ n * (x / 2 ^ n % 2) := by
      rw [← Nat.toNat_testBit]
      cases x.testBit n <;> simp
    rw [List.sum_range_succ, ih, bit, Nat.mod_pow_succ]

/-- The same, read from the most-significant bit down. -/
theorem ofNat_sum_bits (w : BitVec 24) :
    BitVec.ofNat 24 ((List.range 24).map fun k => if w.getLsbD (23 - k) then 2 ^ (23 - k) else 0).sum = w := by
  have reversed : (List.range 24).map (fun k => if w.getLsbD (23 - k) then 2 ^ (23 - k) else 0) =
      ((List.range 24).map fun k => if w.toNat.testBit k then 2 ^ k else 0).reverse := by
    rw [← List.map_reverse, ← map_bit_range, List.map_map]
    rfl
  rw [reversed, List.sum_reverse, sum_two_pow_testBit, Nat.mod_eq_of_lt w.isLt, BitVec.ofNat_toNat, BitVec.setWidth_eq]

/-! ## The pulses of an admissible configuration -/

section
variable {c : Config} (h : c.Admissible)
include h

/-- The two pulse counts and the period fit an element, in their order (R7). -/
theorem toNat_pulses : (pulseOne c).toNat = c.pwOne ∧ (pulseZero c).toNat = c.pwZero := by
  obtain ⟨-, -, -, -, -, hlt, hper, hmax, -⟩ := h
  exact ⟨Nat.mod_eq_of_lt (by omega), Nat.mod_eq_of_lt (by omega)⟩

theorem pulseZero_ne_zero : pulseZero c ≠ 0 := by
  obtain ⟨-, -, -, -, hpos, -⟩ := id h
  intro he
  have := (toNat_pulses h).2
  simp [he] at this
  omega

theorem pulseOne_ne_zero : pulseOne c ≠ 0 := by
  obtain ⟨-, -, -, -, hpos, hlt, -⟩ := id h
  intro he
  have := (toNat_pulses h).1
  simp [he] at this
  omega

theorem pulse_ne_zero (bit : Bool) : pulse c bit ≠ 0 := by
  cases bit with
  | true => exact pulseOne_ne_zero h
  | false => exact pulseZero_ne_zero h

/-- The long pulse is the pulse of a bit 1 alone. -/
theorem pulse_eq_pulseOne_iff (bit : Bool) : pulse c bit = pulseOne c ↔ bit = true := by
  obtain ⟨-, -, -, -, -, hlt, -⟩ := id h
  obtain ⟨hone, hzero⟩ := toNat_pulses h
  cases bit with
  | true => exact iff_of_true rfl rfl
  | false =>
    refine iff_of_false (fun he => ?_) Bool.false_ne_true
    have := congrArg BitVec.toNat he
    simp only [pulse, Bool.false_eq_true, if_false, hone, hzero] at this
    omega

end

/-! ## dec undoes enc -/

/-- A Color is read back from its wire word (R120, R125). -/
theorem unpack24_pack24 (color : Color) : unpack24 (pack24 color) = color := by
  obtain ⟨-, hg, hr, hb, -⟩ := packIsGreenRedBlue color
  rw [unpack24, hg, hr, hb]

/-- Where the first 24 entries of a list are a pixel's, they carry its wire word. -/
theorem pulsesWord_of_getElem? {c : Config} (h : c.Admissible) {pulses : List Elem} {w : BitVec 24}
    (hp : ∀ k, k < 24 → pulses[k]? = some (pulse c (w.getLsbD (23 - k)))) : pulsesWord c pulses = w := by
  have bits : (List.range 24).map (fun k => if pulses[k]? = some (pulseOne c) then 2 ^ (23 - k) else 0) =
      (List.range 24).map fun k => if w.getLsbD (23 - k) then 2 ^ (23 - k) else 0 := by
    refine List.map_congr_left fun k hk => ?_
    rw [hp k (List.mem_range.1 hk)]
    simp only [Option.some.injEq, pulse_eq_pulseOne_iff h]
  rw [pulsesWord, bits, ofNat_sum_bits]

/-- From entry `24 p` on, an encoded frame carries pixel `p`. -/
theorem pulsesWord_enc_drop {c : Config} {fs : List Color} (h : c.Admissible) (hfs : fs.length = c.n) {p : Nat}
    {color : Color} (hp : fs[p]? = some color) : pulsesWord c ((enc c fs).drop (24 * p)) = pack24 color := by
  obtain ⟨hlt, -⟩ := List.getElem?_eq_some_iff.1 hp
  refine pulsesWord_of_getElem? h fun k hk => ?_
  rw [List.getElem?_drop, enc_getElem?_of_lt hfs (by omega), flatMap_pixelPulses_getElem? c hp hk]

theorem dec_enc {c : Config} {fs : List Color} (h : c.Admissible) (hfs : fs.length = c.n) : dec c (enc c fs) = fs := by
  refine List.ext_getElem (by simp [dec, hfs]) fun p hp hp' => ?_
  simp only [dec, List.getElem_map, List.getElem_range]
  rw [pulsesWord_enc_drop h hfs (List.getElem?_eq_getElem hp'), unpack24_pack24]

/-- Settles O26: pixel by pixel, the 24 entries carry the wire word and the word gives the Color; and what has a left
inverse is injective. -/
theorem decodingAnEncodedFrameGivesItBack : Obligations.DecodingAnEncodedFrameGivesItBack := by
  unfold Obligations.DecodingAnEncodedFrameGivesItBack
  refine ⟨fun c fs => dec_enc, fun c fs fs' h hfs hfs' he => ?_⟩
  calc fs = dec c (enc c fs) := (dec_enc h hfs).symm
    _ = dec c (enc c fs') := by rw [he]
    _ = fs' := dec_enc h hfs'

/-! ## The shape of the output -/

/-- An entry of the data is the pulse of some bit. -/
theorem exists_pulse_of_mem {c : Config} {fs : List Color} {e : Elem} (he : e ∈ fs.flatMap (pixelPulses c)) :
    ∃ bit, e = pulse c bit := by
  obtain ⟨color, -, he⟩ := List.mem_flatMap.1 he
  obtain ⟨k, -, rfl⟩ := List.mem_map.1 he
  exact ⟨_, rfl⟩

/-- A pixel has as many long pulses as its wire word has bits 1. -/
theorem count_pixelPulses {c : Config} (h : c.Admissible) (color : Color) :
    (pixelPulses c color).count (pulseOne c) = (List.range 24).countP fun k => (pack24 color).getLsbD k := by
  have long (bit : Bool) : (pulse c bit == pulseOne c) = bit :=
    Bool.eq_iff_iff.2 (beq_iff_eq.trans (pulse_eq_pulseOne_iff h bit))
  rw [← List.countP_reverse, ← map_bit_range, List.countP_map, pixelPulses, List.count, List.countP_map]
  exact List.countP_congr fun k _ => by simp [long]

theorem count_enc {c : Config} (h : c.Admissible) (fs : List Color) : (enc c fs).count (pulseOne c) =
    (fs.map fun color => (List.range 24).countP fun k => (pack24 color).getLsbD k).sum := by
  have gap : (List.replicate c.r (0 : Elem)).count (pulseOne c) = 0 :=
    List.count_eq_zero.2 fun hm => pulseOne_ne_zero h (List.eq_of_mem_replicate hm)
  rw [enc, List.count_append, gap, Nat.add_zero, List.count_flatMap]
  exact congrArg List.sum (List.map_congr_left fun color _ => count_pixelPulses h color)

/-- Settles O25: the data are pulses of bits, which an admissible configuration keeps apart and above 0; the gap is 0. -/
theorem encodedFrameHasItsShape : Obligations.EncodedFrameHasItsShape := by
  unfold Obligations.EncodedFrameHasItsShape
  intro c fs h hfs
  have data_len : 24 * c.n = c.dataLen := Nat.mul_comm ..
  refine ⟨enc_length hfs, data_len ▸ enc_drop hfs, fun e he => ?_, count_enc h fs⟩
  have data : (enc c fs).take (24 * c.n) = fs.flatMap (pixelPulses c) :=
    List.take_left' (by rw [flatMap_pixelPulses_length, hfs, data_len, Config.dataLen])
  obtain ⟨bit, rfl⟩ := exists_pulse_of_mem (data ▸ he)
  refine ⟨?_, pulse_ne_zero h bit⟩
  cases bit with
  | true => exact .inl rfl
  | false => exact .inr rfl

end Sys2Proof.Machine
end

section
/-! What the next step does, from the word presented and the agent whose move is next (R80, R208, R180). -/

namespace Sys2Proof.Machine

variable {i : Instr} {s : State}

/-! ## The step, by what it fetches -/

theorem step_of_moved {t : State} (h : fetch s = .moved t) : step s = .next t := by simp [step, h]

theorem step_of_run {t : State} (h : fetch s = .run i t) : step s = exec i t := by simp [step, h]

/-- A live block takes a presented word first (R80, log entry 4). -/
theorem step_of_cmdIn {w : CmdWord} (hl : s.Live) (hw : s.cmdIn = some w) : step s = presentWord w s := by
  have hf : fetch s = fetchWord w s := by simp [fetch, faulted_eq_false.2 hl, hw]
  cases h : fetchWord w s <;> simp [step, presentWord, hf, h]

section
variable (hl : s.Live) (hn : s.cmdIn = none)
include hl hn

/-- With no word presented, the next agent moves, its move used up (R208, log entry 3). -/
theorem fetch_of_nextAgent {a : Agent} (ha : nextAgent s = a) : fetch s = fetchMove a (advance s) := by
  simp [fetch, faulted_eq_false.2 hl, hn, ha]

theorem step_of_host (ha : nextAgent s = .host) : step s = .next (hostMove (advance s)) :=
  step_of_moved (fetch_of_nextAgent hl hn ha)

theorem step_of_second (ha : nextAgent s = .second) : step s = .next (secondMove (advance s)) :=
  step_of_moved (fetch_of_nextAgent hl hn ha)

theorem step_of_timer (ha : nextAgent s = .timer) : step s = exec .timerPeriod (advance s) :=
  step_of_run (fetch_of_nextAgent hl hn ha)

theorem step_of_engine (ha : nextAgent s = .engine) : step s = exec .engineService (advance s) :=
  step_of_run (fetch_of_nextAgent hl hn ha)

/-- The controller's move is its phase's step (R152). -/
theorem step_of_controller (ha : nextAgent s = .controller) (hi : phaseInstr s.phase = .ok i) :
    step s = exec i (advance s) := by
  have hf : fetch s = .run i (advance s) := by
    rw [fetch_of_nextAgent hl hn ha]
    simp [fetchMove, hi]
  exact step_of_run hf

/-- In IDLE the controller has no step (R140, log entry 5). -/
theorem step_of_controller_idle (ha : nextAgent s = .controller) (hp : s.phase = .idle) : step s = .next (advance s) := by
  have hf : fetch s = .moved (advance s) := by
    rw [fetch_of_nextAgent hl hn ha]
    simp [fetchMove, hp, phaseInstr]
  exact step_of_moved hf

end

/-- A listed move goes first (log entry 3). -/
theorem nextAgent_of_sched {a : Agent} {rest : List Agent} (h : s.sched = a :: rest) : nextAgent s = a := by
  simp [nextAgent, h]

theorem advance_of_sched {a : Agent} {rest : List Agent} (h : s.sched = a :: rest) :
    advance s = { s with sched := rest, moves := s.moves + 1 } := by
  rw [advance, h, List.tail_cons]

/-- Settles O8: a live block's step is R207's answer to the word, which for a word that decodes is its instruction. -/
theorem stepRunsThePresentedWord : Obligations.StepRunsThePresentedWord := by
  unfold Obligations.StepRunsThePresentedWord
  intro s w hl hw
  have hstep := step_of_cmdIn hl hw
  exact ⟨hstep, fun i hi => hstep.trans (presentWord_of_ok hi)⟩

/-- Settles O9: one equation of the step for each agent of the block. -/
theorem stepRunsTheAgentWhoseTurnItIs : Obligations.StepRunsTheAgentWhoseTurnItIs := by
  unfold Obligations.StepRunsTheAgentWhoseTurnItIs
  intro s hl hn
  exact ⟨step_of_controller_idle hl hn, fun i ha hi => step_of_controller hl hn ha (phaseInstr_of_phase? hi),
    step_of_timer hl hn, step_of_engine hl hn, fun a rest h => ⟨nextAgent_of_sched h, advance_of_sched h⟩⟩

/-! ## The issuers' moves (R180) -/

/-- A response is taken before anything is presented. -/
theorem hostMove_of_resp {v : RespWord} (hr : s.resp = some v) :
    hostMove s = { s with resp := none, hostAwait := false } := by
  simp [hostMove, hr]

/-- The host presents only while it waits for nothing. -/
theorem hostMove_of_hostAwait (hr : s.resp = none) (ha : s.hostAwait = true) : hostMove s = s := by
  simp [hostMove, hr, ha]

section
variable (hn : s.cmdIn = none)
include hn

theorem hostMove_of_hostProg_nil (hr : s.resp = none) (ha : s.hostAwait = false) (hp : s.hostProg = []) :
    hostMove s = s := by
  simp [hostMove, hr, ha, hn, hp]

theorem hostMove_of_hostProg_cons {w : CmdWord} {ws : List CmdWord} (hr : s.resp = none) (ha : s.hostAwait = false)
    (hp : s.hostProg = w :: ws) :
    hostMove s = { s with cmdIn := some w, hostProg := ws, hostAwait := true } := by
  simp [hostMove, hr, ha, hn, hp]

theorem secondMove_of_second_nil (hs : s.second = []) : secondMove s = s := by simp [secondMove, hn, hs]

theorem secondMove_of_second_cons {w : CmdWord} {ws : List CmdWord} (hs : s.second = w :: ws) :
    secondMove s = { s with cmdIn := some w, second := ws } := by
  simp [secondMove, hn, hs]

end

/-- Settles O10: one equation of each issuer's move for each thing it can find. -/
theorem issuersPresentAndTake : Obligations.IssuersPresentAndTake := by
  unfold Obligations.IssuersPresentAndTake
  intro s hl hn
  refine ⟨fun ha => ?_, fun ha => ?_⟩
  · rw [step_of_host hl hn ha]
    exact ⟨fun v hr => congrArg _ (hostMove_of_resp (s := advance s) hr),
      fun hr hw => congrArg _ (hostMove_of_hostAwait (s := advance s) hr hw),
      fun hr hw hp => congrArg _ (hostMove_of_hostProg_nil (s := advance s) hn hr hw hp),
      fun w ws hr hw hp => congrArg _ (hostMove_of_hostProg_cons (s := advance s) hn hr hw hp)⟩
  · rw [step_of_second hl hn ha]
    exact ⟨fun hs => congrArg _ (secondMove_of_second_nil (s := advance s) hn hs),
      fun w ws hs => congrArg _ (secondMove_of_second_cons (s := advance s) hn hs)⟩

end Sys2Proof.Machine
end

section
/-! The controller's steps that arm the engine, the poll, and the two events, each where it is enabled and where it is not
(R144 to R148, R175, R176). -/

namespace Sys2Proof.Machine

variable {s : State}

theorem exec_engDisable (hl : s.Live) (hp : s.phase = .engDisable) :
    exec .engDisable s = .next { s with engCfg := { s.engCfg with en := false }, phase := .engLoad } :=
  execEngDisable_next.2 ⟨hl, .inl ⟨hp, rfl⟩⟩

theorem exec_engLoad (hl : s.Live) (hp : s.phase = .engLoad) :
    exec .engLoad s = .next { s with engCnt := s.cfg.len, phase := .engEnable } :=
  execEngLoad_next.2 ⟨hl, .inl ⟨hp, rfl⟩⟩

theorem exec_engEnable (hl : s.Live) (hp : s.phase = .engEnable) :
    exec .engEnable s = .next { s with engCfg := { s.engCfg with en := true }, phase := .tmrEnable } :=
  execEngEnable_next.2 ⟨hl, .inl ⟨hp, rfl⟩⟩

theorem exec_tmrEnable (hl : s.Live) (hp : s.phase = .tmrEnable) :
    exec .tmrEnable s = .next { s with tmrCtrl := { s.tmrCtrl with en := true }, phase := .wait } :=
  execTmrEnable_next.2 ⟨hl, .inl ⟨hp, rfl⟩⟩

/-- What the invariant says of ENG_LOAD's phase (R145). -/
theorem State.Inv.engCfg_en_of_engLoad (h : s.Inv) (hp : s.phase = .engLoad) : s.engCfg.en = false := by
  have facts := h.phase
  simp only [State.PhaseFacts, hp] at facts
  exact facts.2.2

/-- Settles O29: in its phase, a controller step is its effect. -/
theorem armingStepsWriteOneFieldEach : Obligations.ArmingStepsWriteOneFieldEach := by
  unfold Obligations.ArmingStepsWriteOneFieldEach
  exact ⟨rfl, fun s hl => ⟨exec_engDisable hl, exec_engLoad hl, State.Inv.engCfg_en_of_engLoad, exec_engEnable hl,
    exec_tmrEnable hl⟩⟩

theorem exec_wait_of_tc (hl : s.Live) (hp : s.phase = .wait) (ht : s.tc = true) :
    exec .wait s = .next { s with phase := .clearTc } :=
  execWait_next.2 ⟨hl, .inl ⟨hp, .inl ⟨ht, rfl⟩⟩⟩

theorem exec_wait_of_unbounded (hl : s.Live) (hp : s.phase = .wait) (ht : s.tc = false) (hb : s.cfg.waitBound = none) :
    exec .wait s = .next s :=
  execWait_next.2 ⟨hl, .inl ⟨hp, .inr (.inl ⟨ht, hb, rfl⟩)⟩⟩

/-- A failed poll under a bound is counted, and the one that meets the bound goes to ABORT (R148). -/
theorem exec_wait_of_bounded {b : Nat} (hl : s.Live) (hp : s.phase = .wait) (ht : s.tc = false)
    (hb : s.cfg.waitBound = some b) : exec .wait s = .next
      { s with polls := s.polls + 1, phase := if s.polls + 1 = b then .abort else .wait } := by
  refine execWait_next.2 ⟨hl, .inl ⟨hp, .inr (.inr ⟨ht, b, hb, ?_⟩)⟩⟩
  split_ifs with hn
  · rfl
  · rw [← hp]; rfl

/-- Settles O30: the three things that a poll can find. -/
theorem waitPollsTheCompletionFlag : Obligations.WaitPollsTheCompletionFlag := by
  unfold Obligations.WaitPollsTheCompletionFlag
  exact ⟨rfl, fun s hl hp => ⟨exec_wait_of_tc hl hp, exec_wait_of_unbounded hl hp,
    fun b => exec_wait_of_bounded hl hp⟩⟩

theorem exec_clearTc (hl : s.Live) (hp : s.phase = .clearTc) :
    exec .clearTc s = .next { s with tc := false, phase := .tmrDisable } :=
  execClearTc_next.2 ⟨hl, .inl ⟨hp, rfl⟩⟩

theorem exec_tmrDisable (hl : s.Live) (hp : s.phase = .tmrDisable) : exec .tmrDisable s = .next
    { s with tmrCtrl := { s.tmrCtrl with en := false }, status := .ok, phase := .idle, resp := some 0x03000000#32 } :=
  execTmrDisable_next.2 ⟨hl, .inl ⟨hp, rfl⟩⟩

theorem exec_abort (hl : s.Live) (hp : s.phase = .abort) : exec .abort s = .next
    { s with
      tmrCtrl := { s.tmrCtrl with en := false }, engCfg := { s.engCfg with en := false }, engCnt := 0, tc := false,
      tmrCmp := 0, status := .timedOut, phase := .idle, resp := some 0x03000001#32 } :=
  execAbort_next.2 ⟨hl, .inl ⟨hp, rfl⟩⟩

theorem exec_timerPeriod_of_enabled (hl : s.Live) (he : s.tmrCtrl.en = true) (hr : s.reqPending = false) :
    exec .timerPeriod s = .next { s with periods := s.periods ++ [s.tmrCmp], reqPending := s.tmrCtrl.reqEn } :=
  execTimerPeriod_next.2 ⟨hl, .inl ⟨he, hr, rfl⟩⟩

theorem exec_timerPeriod_of_not_enabled (hl : s.Live) (h : s.tmrCtrl.en = false ∨ s.reqPending = true) :
    exec .timerPeriod s = .next s :=
  execTimerPeriod_next.2 ⟨hl, .inr ⟨h, rfl⟩⟩

/-- Settles O41: a period event where it is enabled, and where it is not. -/
theorem periodEventLogsAndRequests : Obligations.PeriodEventLogsAndRequests := by
  unfold Obligations.PeriodEventLogsAndRequests
  exact ⟨rfl, fun s hl => ⟨exec_timerPeriod_of_enabled hl, exec_timerPeriod_of_not_enabled hl⟩⟩

theorem exec_engineService_of_transfer {v : Elem} (hl : s.Live) (hr : s.reqPending = true) (he : s.engCfg.en = true)
    (h0 : 0 < s.engCnt) (hle : s.engCnt ≤ s.cfg.len) (hv : s.buf[s.cfg.len - s.engCnt]? = some v) :
    exec .engineService s = .next
      { s with
        reqPending := false, tmrCmp := v, emitted := s.emitted ++ [v], engCnt := s.engCnt - 1,
        tc := s.tc || s.engCnt == 1 } :=
  execEngineService_next.2 ⟨hl, .inl ⟨hr, he, h0, hle, v, hv, rfl⟩⟩

theorem exec_engineService_of_drop (hl : s.Live) (hr : s.reqPending = true) (h : s.engCfg.en = false ∨ s.engCnt = 0) :
    exec .engineService s = .next { s with reqPending := false } :=
  execEngineService_next.2 ⟨hl, .inr (.inl ⟨hr, h, rfl⟩)⟩

theorem exec_engineService_of_no_request (hl : s.Live) (hr : s.reqPending = false) : exec .engineService s = .next s :=
  execEngineService_next.2 ⟨hl, .inr (.inr ⟨hr, rfl⟩)⟩

/-- A store of LEN elements has the one that a count of at most LEN names (R62). -/
theorem exists_source {n : Nat} (hm : s.memWf = true) (h0 : 0 < n) (hle : n ≤ s.cfg.len) :
    ∃ v, s.buf[s.cfg.len - n]? = some v :=
  memRead_isSome hm (by omega)

/-- Settles O42: a service that transfers, one that drops the request, and none. -/
theorem engineServiceTransfersOrDrops : Obligations.EngineServiceTransfersOrDrops := by
  unfold Obligations.EngineServiceTransfersOrDrops
  refine ⟨rfl, fun s hl => ⟨fun hr he h0 hle hm => ?_, exec_engineService_of_drop hl,
    exec_engineService_of_no_request hl⟩⟩
  obtain ⟨v, hv⟩ := exists_source hm h0 hle
  exact ⟨v, hv, exec_engineService_of_transfer hl hr he h0 hle hv⟩

/-! ## Set then get (40_frame_store.md) -/

/-- A Frame Store command that reads at no index leaves a block that is ready for the next one. -/
theorem State.Ready.withResult (hs : s.Ready) (r : List Color × RespWord) : (s.withResult r).Ready := hs

/-- GET_PIXEL answers the Color that the command before it left at its index. -/
theorem exec_getPixel_withResult {idx : BitVec 16} {color : Color} {r : List Color × RespWord} (hs : s.Ready)
    (hg : s.cfg.hasGetter = true) (hr : idx.toNat < s.cfg.n) (hread : r.1[idx.toNat]? = some color) :
    ∃ u, exec (.getPixel idx) (s.withResult r) = .next u ∧
      u.resp = some (0x02#8 ++ color.r ++ color.g ++ color.b) :=
  ⟨_, exec_getPixel (s := s.withResult r) (hs.withResult r) hg hr hread, rfl⟩

/-- Settles O22: what a setter or FILL leaves in FS, read back by GET_PIXEL or by index. -/
theorem frameStoreReadsBackWhatWasWritten : Obligations.FrameStoreReadsBackWhatWasWritten := by
  unfold Obligations.FrameStoreReadsBackWhatWasWritten
  intro s idx c hs hm
  obtain ⟨hfs, -⟩ := memWf_iff.1 hm
  refine ⟨fun hg hr => ?_, fun hg hr => ?_, fun hr => ?_, ?_⟩
  · have hread : (setInRange s.cfg s.fs idx c)[idx.toNat]? = some c := by
      rw [setInRange, if_pos hr, List.getElem?_set_self (by omega)]
    obtain ⟨u, hu, hresp⟩ := exec_getPixel_withResult (r := (_, 0x01000000#32)) hs hg hr hread
    exact ⟨_, u, exec_setPixel idx c hs, hu, hresp⟩
  · have hread : (List.replicate s.cfg.n c)[idx.toNat]? = some c := List.getElem?_replicate_of_lt hr
    obtain ⟨u, hu, hresp⟩ := exec_getPixel_withResult (r := (_, 0x01000000#32)) hs hg hr hread
    exact ⟨_, u, exec_fill c hs, hu, hresp⟩
  · exact ⟨_, exec_setPixel_of_le c hs hr, fun _ => rfl⟩
  · refine ⟨_, exec_setPixel idx c hs, fun j hj => ?_⟩
    change (setInRange s.cfg s.fs idx c)[j]? = s.fs[j]?
    unfold setInRange
    split_ifs
    · exact List.getElem?_set_ne hj.symm
    · rfl

end Sys2Proof.Machine
end

section
/-! Every step keeps the invariant (R26, R44, R153, R174): each part of State.Inv over the next states of an instruction, then
over the moves of the issuers. -/

namespace Sys2Proof.Machine

variable {i : Instr} {s t : State}

theorem exec_cfg (h : exec i s = .next t) : t.cfg = s.cfg := by
  cases (exec_next h).2 with
  | _ => simp

theorem phase_of_firstFault_none (hf : firstFault i s = none) : s.phase = .idle := (firstFault_none.1 hf).2.1

theorem initDone_of_firstFault_none (hf : firstFault i s = none) (hi : i ≠ .init) : s.initDone = true := by
  obtain ⟨-, -, -, hdone, -⟩ := firstFault_none.1 hf
  exact hdone hi

/-! ## The fault record (R39, R46) -/

theorem State.FaultFacts.faultCmd_of_live (h : s.FaultFacts) (hl : s.Live) : s.faultCmd = 0 := by
  obtain ⟨-, hc⟩ | ⟨hm, -⟩ := h
  · exact hc
  · rw [hl] at hm
    exact absurd hm (by decide)

/-- Recording a fault where there is none leaves exactly one code's bit. -/
theorem faultFacts_raiseFault (code : FaultCode) (w : CmdWord) (hl : s.Live) : (raiseFault code w s).FaultFacts := by
  refine .inr ⟨?_, rfl⟩
  rw [raiseFault_blkFault, hl, BitVec.zero_or]
  exact List.mem_map_of_mem (by cases code <;> decide)

theorem exec_faultFacts (hs : s.FaultFacts) (h : exec i s = .next t) : t.FaultFacts := by
  have hl : s.Live := (exec_next h).1
  obtain ⟨hb, hc⟩ | ⟨-, code, -, rfl⟩ := exec_faultRecord h
  · exact .inl ⟨hb.trans hl, hc.trans (hs.faultCmd_of_live hl)⟩
  · exact faultFacts_raiseFault code _ hl

/-! ## Before INIT (R203, R230) -/

/-- Before INIT nothing but INIT and the recording of a fault has an effect: the other commands find INIT_DONE 0, the
controller is in IDLE, the timer is stopped and no request is pending. -/
theorem exec_before (hs : s.initDone = false → s.Unconfigured) (h : exec i s = .next t) (hd : t.initDone = false) :
    t.Unconfigured := by
  have ready_of {j : Instr} (hf : firstFault j s = none) (hj : j ≠ .init) (hd : s.initDone = false) : False := by
    cases hd.symm.trans (initDone_of_firstFault_none hf hj)
  cases (exec_next h).2 with
  | hold => exact hs hd
  | fault => exact hs hd
  | init => cases hd
  | setPixel hf | setPixelIgnored hf | setPixelChannels hf | setPixelChannelsIgnored hf | fill hf | getPixel hf =>
    exact (ready_of hf nofun hd).elim
  | transmit hf => exact (ready_of hf nofun (by simpa using hd)).elim
  | encode hp | engDisable hp | engLoad hp | engEnable hp | tmrEnable hp | waitDone hp | waitPoll hp | waitAbort hp
  | clearTc hp | tmrDisable hp | abort hp =>
    obtain ⟨hidle, -⟩ := hs hd
    cases hp.symm.trans hidle
  | timerPeriod he =>
    obtain ⟨-, -, -, -, -, -, htmr, -⟩ := hs hd
    rw [htmr] at he
    cases he
  | transfer hr | dropRequest hr =>
    obtain ⟨-, -, -, -, -, -, -, -, -, hreq, -⟩ := hs hd
    cases hr.symm.trans hreq

/-! ## The poll counter (R37, R142, R148) -/

theorem pollFacts_none (hb : s.cfg.waitBound = none) :
    s.PollFacts ↔ s.polls = 0 ∧ s.status = .ok ∧ s.phase ≠ .abort := by simp [State.PollFacts, hb]

theorem pollFacts_some {b : Nat} (hb : s.cfg.waitBound = some b) : s.PollFacts ↔
    s.polls ≤ b ∧ (s.phase = .abort → s.polls = b) ∧ (s.phase ≠ .idle → s.phase ≠ .abort → s.polls < b) := by
  simp [State.PollFacts, hb]

theorem exec_pollFacts_none (hb : s.cfg.waitBound = none) (hs : s.PollFacts) (h : exec i s = .next t) : t.PollFacts := by
  obtain ⟨hpolls, hstatus, habort⟩ := (pollFacts_none hb).1 hs
  refine (pollFacts_none ((exec_cfg h).symm ▸ hb)).2 ?_
  cases (exec_next h).2 with
  | waitPoll _ _ hb' | waitAbort _ _ hb' => cases hb.symm.trans hb'
  | abort hp => exact absurd hp habort
  | _ => simp_all

/-- TRANSMIT clears the count, a failed poll adds 1 to it, and the poll that meets the bound goes to ABORT. -/
theorem exec_pollFacts_some {b : Nat} (hb : s.cfg.waitBound = some b) (hpos : 1 ≤ b) (hs : s.PollFacts)
    (h : exec i s = .next t) : t.PollFacts := by
  obtain ⟨hle, habort, hlt⟩ := (pollFacts_some hb).1 hs
  refine (pollFacts_some ((exec_cfg h).symm ▸ hb)).2 ?_
  cases (exec_next h).2 with
  | hold | fault | timerPeriod | transfer | dropRequest => exact ⟨hle, habort, hlt⟩
  | init hf | setPixel hf | setPixelIgnored hf | setPixelChannels hf | setPixelChannelsIgnored hf | fill hf
  | getPixel hf => exact ⟨hle, habort, hlt⟩
  | transmit hf => simpa [hb] using Nat.succ_le_iff.1 hpos
  | encode hp | engDisable hp | engLoad hp | engEnable hp | tmrEnable hp | waitDone hp | clearTc hp =>
    exact ⟨hle, nofun, fun _ _ => hlt (by simp [hp]) (by simp [hp])⟩
  | waitPoll hp _ hb' hn =>
    cases hb.symm.trans hb'
    have := hlt (by simp [hp]) (by simp [hp])
    exact ⟨by simpa using this, by simp [hp], fun _ _ => by simp; omega⟩
  | waitAbort hp _ hb' hn =>
    cases hb.symm.trans hb'
    exact ⟨hn.le, fun _ => hn, fun _ h => absurd rfl h⟩
  | tmrDisable | abort => exact ⟨hle, nofun, fun h => absurd rfl h⟩

theorem exec_pollFacts (hc : s.cfg.Admissible) (hs : s.PollFacts) (h : exec i s = .next t) : t.PollFacts := by
  cases hb : s.cfg.waitBound with
  | none => exact exec_pollFacts_none hb hs h
  | some b =>
    obtain ⟨-, -, -, -, -, -, -, -, -, hpos⟩ := hc
    exact exec_pollFacts_some hb (hpos b hb) hs h

/-! ## What each phase finds (R141 to R151) -/

theorem phaseFacts_idle (hp : s.phase = .idle) : s.PhaseFacts ↔ s.Quiet := by simp only [State.PhaseFacts, hp]

theorem phaseFacts_encode (hp : s.phase = .encode) : s.PhaseFacts ↔ s.Quiet := by simp only [State.PhaseFacts, hp]

theorem phaseFacts_engDisable (hp : s.phase = .engDisable) : s.PhaseFacts ↔ s.Quiet ∧ s.Encoded := by
  simp only [State.PhaseFacts, hp]

theorem phaseFacts_engLoad (hp : s.phase = .engLoad) : s.PhaseFacts ↔ s.Quiet ∧ s.Encoded ∧ s.engCfg.en = false := by
  simp only [State.PhaseFacts, hp]

theorem phaseFacts_engEnable (hp : s.phase = .engEnable) : s.PhaseFacts ↔
    s.Encoded ∧ s.engCfg.en = false ∧ s.tmrCtrl.en = false ∧ s.engCnt = s.cfg.len ∧ s.tc = false ∧ s.tmrCmp = 0 := by
  simp only [State.PhaseFacts, hp]

theorem phaseFacts_tmrEnable (hp : s.phase = .tmrEnable) : s.PhaseFacts ↔
    s.Encoded ∧ s.engCfg.en = true ∧ s.tmrCtrl.en = false ∧ s.Transferring ∧
      (s.engCnt = s.cfg.len ∨ s.engCnt + 1 = s.cfg.len ∧ s.reqPending = false) := by
  simp only [State.PhaseFacts, hp]

theorem phaseFacts_wait (hp : s.phase = .wait) :
    s.PhaseFacts ↔ s.Encoded ∧ s.engCfg.en = true ∧ s.tmrCtrl.en = true ∧ s.Transferring := by
  simp only [State.PhaseFacts, hp]

theorem phaseFacts_abort (hp : s.phase = .abort) :
    s.PhaseFacts ↔ s.Encoded ∧ s.engCfg.en = true ∧ s.tmrCtrl.en = true ∧ s.Transferring := by
  simp only [State.PhaseFacts, hp]

theorem phaseFacts_clearTc (hp : s.phase = .clearTc) : s.PhaseFacts ↔
    s.Encoded ∧ s.engCfg.en = true ∧ s.tmrCtrl.en = true ∧ s.engCnt = 0 ∧ s.tc = true ∧ s.tmrCmp = 0 := by
  simp only [State.PhaseFacts, hp]

theorem phaseFacts_tmrDisable (hp : s.phase = .tmrDisable) : s.PhaseFacts ↔
    s.Encoded ∧ s.engCfg.en = true ∧ s.tmrCtrl.en = true ∧ s.engCnt = 0 ∧ s.tc = false ∧ s.tmrCmp = 0 := by
  simp only [State.PhaseFacts, hp]

/-- An admissible buffer has two entries at least, its gap (R7). -/
theorem two_le_len {c : Config} (h : c.Admissible) : 2 ≤ c.len := by
  obtain ⟨-, -, hr, -⟩ := h
  exact hr.trans (Nat.le_add_left ..)

/-- Before ENG_ENABLE's phase the block is quiet. -/
theorem State.PhaseFacts.quiet (h : s.PhaseFacts)
    (hp : s.phase = .idle ∨ s.phase = .encode ∨ s.phase = .engDisable ∨ s.phase = .engLoad) : s.Quiet := by
  obtain hp | hp | hp | hp := hp
  · exact (phaseFacts_idle hp).1 h
  · exact (phaseFacts_encode hp).1 h
  · exact ((phaseFacts_engDisable hp).1 h).1
  · exact ((phaseFacts_engLoad hp).1 h).1

/-- The timer runs in the last four phases alone. -/
theorem State.PhaseFacts.phase_of_tmrCtrl_en (h : s.PhaseFacts) (he : s.tmrCtrl.en = true) :
    s.phase = .wait ∨ s.phase = .abort ∨ s.phase = .clearTc ∨ s.phase = .tmrDisable := by
  have stopped (hoff : s.tmrCtrl.en = false) : False := by cases he.symm.trans hoff
  cases hp : s.phase with
  | idle | encode | engDisable | engLoad => exact (stopped (h.quiet (by simp [hp])).1).elim
  | engEnable =>
    obtain ⟨-, -, hoff, -⟩ := (phaseFacts_engEnable hp).1 h
    exact (stopped hoff).elim
  | tmrEnable =>
    obtain ⟨-, -, hoff, -⟩ := (phaseFacts_tmrEnable hp).1 h
    exact (stopped hoff).elim
  | wait | abort | clearTc | tmrDisable => simp

/-- The facts of every phase but TMR_ENABLE's say nothing of REQ_PENDING. -/
theorem State.PhaseFacts.setReqPending (h : s.PhaseFacts) (v : Bool) (hp : s.phase ≠ .tmrEnable) :
    (setReqPending v s).PhaseFacts := by
  unfold State.PhaseFacts at h ⊢
  cases hq : s.phase with
  | tmrEnable => exact absurd hq hp
  | _ =>
    simp only [setReqPending_phase, hq] at h ⊢
    exact h

/-- In TMR_ENABLE's phase the engine is enabled with a count above 0, so that no request is dropped. -/
theorem State.PhaseFacts.engine_of_tmrEnable (h : s.PhaseFacts) (hc : s.cfg.Admissible) (hp : s.phase = .tmrEnable) :
    s.engCfg.en = true ∧ 0 < s.engCnt := by
  obtain ⟨-, he, -, -, hcnt⟩ := (phaseFacts_tmrEnable hp).1 h
  have := two_le_len hc
  exact ⟨he, by omega⟩

/-- The state after the engine has moved on by an element `v` of the buffer (R176). -/
abbrev State.transferred (s : State) (v : Elem) : State :=
  { s with
    reqPending := false, tmrCmp := v, emitted := s.emitted ++ [v], engCnt := s.engCnt - 1,
    tc := s.tc || s.engCnt == 1 }

theorem State.Transferring.transferred {v : Elem} (h : s.Transferring) (h0 : 0 < s.engCnt)
    (hv : s.buf[s.cfg.len - s.engCnt]? = some v) : (s.transferred v).Transferring := by
  obtain ⟨hle, htc, -⟩ := h
  have htc0 : s.tc = false := by
    rw [← Bool.not_eq_true, htc]
    exact h0.ne'
  refine ⟨(Nat.sub_le ..).trans hle, ?_, ?_⟩
  · simp only [htc0, Bool.false_or, beq_iff_eq]
    omega
  · have hlast : s.cfg.len - (s.engCnt - 1) - 1 = s.cfg.len - s.engCnt := by omega
    dsimp only
    rw [if_neg (by omega), hlast, List.getD_eq_getElem?_getD, hv, Option.getD_some]

/-- A transfer happens in TMR_ENABLE's phase, where it is the stale request's, in WAIT or in ABORT. -/
theorem State.PhaseFacts.transferred {v : Elem} (h : s.PhaseFacts) (hr : s.reqPending = true)
    (he : s.engCfg.en = true) (h0 : 0 < s.engCnt) (hv : s.buf[s.cfg.len - s.engCnt]? = some v) :
    (s.transferred v).PhaseFacts := by
  have counted (hcnt : s.engCnt = 0) : False := h0.ne' hcnt
  cases hp : s.phase with
  | idle | encode | engDisable | engLoad => exact (counted (h.quiet (by simp [hp])).2.1).elim
  | engEnable =>
    obtain ⟨-, hoff, -⟩ := (phaseFacts_engEnable hp).1 h
    cases he.symm.trans hoff
  | tmrEnable =>
    obtain ⟨hbuf, -, hoff, htr, hcnt | ⟨-, hr'⟩⟩ := (phaseFacts_tmrEnable hp).1 h
    · exact (phaseFacts_tmrEnable (s := s.transferred v) hp).2
        ⟨hbuf, he, hoff, htr.transferred h0 hv, .inr ⟨(Nat.sub_add_cancel h0).trans hcnt, rfl⟩⟩
    · cases hr.symm.trans hr'
  | wait =>
    obtain ⟨hbuf, -, hon, htr⟩ := (phaseFacts_wait hp).1 h
    exact (phaseFacts_wait (s := s.transferred v) hp).2 ⟨hbuf, he, hon, htr.transferred h0 hv⟩
  | abort =>
    obtain ⟨hbuf, -, hon, htr⟩ := (phaseFacts_abort hp).1 h
    exact (phaseFacts_abort (s := s.transferred v) hp).2 ⟨hbuf, he, hon, htr.transferred h0 hv⟩
  | clearTc =>
    obtain ⟨-, -, -, hcnt, -⟩ := (phaseFacts_clearTc hp).1 h
    exact (counted hcnt).elim
  | tmrDisable =>
    obtain ⟨-, -, -, hcnt, -⟩ := (phaseFacts_tmrDisable hp).1 h
    exact (counted hcnt).elim

/-- When the count has come to 0, the last transfer was of the gap's last 0 (R122, R176). -/
theorem State.Transferring.tmrCmp_of_engCnt_eq_zero (h : s.Transferring) (hc : s.cfg.Admissible) (hgap : s.GapZero)
    (h0 : s.engCnt = 0) : s.tmrCmp = 0 := by
  obtain ⟨-, -, hcmp⟩ := h
  have hlen := two_le_len hc
  obtain ⟨-, -, hr, -⟩ := hc
  have hdata : s.cfg.dataLen ≤ s.cfg.len - 1 := by unfold Config.len; omega
  rw [hcmp, if_neg (by omega), h0, Nat.sub_zero, List.getD_eq_getElem?_getD, hgap.getElem? hdata (by omega),
    Option.getD_some]

theorem exec_phaseFacts (hc : s.cfg.Admissible) (hgap : s.GapZero) (hs : s.PhaseFacts) (h : exec i s = .next t) :
    t.PhaseFacts := by
  cases (exec_next h).2 with
  | hold | fault => exact hs
  | init hf =>
    have hp := phase_of_firstFault_none hf
    obtain ⟨hoff, hcnt, htc, -⟩ := (phaseFacts_idle hp).1 hs
    exact (phaseFacts_idle (s := respond .ack 0 (configure (consume s))) hp).2 ⟨hoff, hcnt, htc, rfl⟩
  | setPixel hf | setPixelIgnored hf | setPixelChannels hf | setPixelChannelsIgnored hf | fill hf | getPixel hf =>
    have hp := phase_of_firstFault_none hf
    refine (phaseFacts_idle ?_).2 ((phaseFacts_idle hp).1 hs)
    exact hp
  | transmit hf =>
    have hquiet := (phaseFacts_idle (phase_of_firstFault_none hf)).1 hs
    exact (phaseFacts_encode rfl).2 (by simpa [State.Quiet] using hquiet)
  | encode hp => exact (phaseFacts_engDisable rfl).2 ⟨(phaseFacts_encode hp).1 hs, rfl⟩
  | engDisable hp =>
    obtain ⟨hquiet, hbuf⟩ := (phaseFacts_engDisable hp).1 hs
    exact (phaseFacts_engLoad rfl).2 ⟨hquiet, hbuf, rfl⟩
  | engLoad hp =>
    obtain ⟨⟨hoff, -, htc, hcmp⟩, hbuf, hen⟩ := (phaseFacts_engLoad hp).1 hs
    exact (phaseFacts_engEnable rfl).2 ⟨hbuf, hen, hoff, rfl, htc, hcmp⟩
  | engEnable hp =>
    obtain ⟨hbuf, -, hoff, hcnt, htc, hcmp⟩ := (phaseFacts_engEnable hp).1 hs
    have hlen := two_le_len hc
    have htr : s.Transferring :=
      ⟨hcnt.le, iff_of_false (by simp [htc]) (by omega), hcmp.trans (if_pos hcnt).symm⟩
    exact (phaseFacts_tmrEnable rfl).2 ⟨hbuf, rfl, hoff, htr, .inl hcnt⟩
  | tmrEnable hp =>
    obtain ⟨hbuf, hen, -, htr, -⟩ := (phaseFacts_tmrEnable hp).1 hs
    exact (phaseFacts_wait rfl).2 ⟨hbuf, hen, rfl, htr⟩
  | waitDone hp ht =>
    obtain ⟨hbuf, hen, hon, htr⟩ := (phaseFacts_wait hp).1 hs
    have h0 : s.engCnt = 0 := htr.2.1.1 ht
    exact (phaseFacts_clearTc rfl).2 ⟨hbuf, hen, hon, h0, ht, htr.tmrCmp_of_engCnt_eq_zero hc hgap h0⟩
  | waitPoll hp => exact (phaseFacts_wait hp).2 ((phaseFacts_wait hp).1 hs)
  | waitAbort hp => exact (phaseFacts_abort rfl).2 ((phaseFacts_wait hp).1 hs)
  | clearTc hp =>
    obtain ⟨hbuf, hen, hon, hcnt, -, hcmp⟩ := (phaseFacts_clearTc hp).1 hs
    exact (phaseFacts_tmrDisable rfl).2 ⟨hbuf, hen, hon, hcnt, rfl, hcmp⟩
  | tmrDisable hp =>
    obtain ⟨-, -, -, hcnt, htc, hcmp⟩ := (phaseFacts_tmrDisable hp).1 hs
    exact (phaseFacts_idle rfl).2 ⟨rfl, hcnt, htc, hcmp⟩
  | abort hp => exact (phaseFacts_idle rfl).2 ⟨rfl, rfl, rfl, rfl⟩
  | timerPeriod he =>
    have hp : s.phase ≠ .tmrEnable := by
      intro hp
      simpa [hp] using hs.phase_of_tmrCtrl_en he
    exact hs.setReqPending s.tmrCtrl.reqEn hp
  | transfer hr he h0 hle hv => exact hs.transferred hr he h0 hv
  | dropRequest hr hdrop =>
    refine hs.setReqPending false fun hp => ?_
    obtain ⟨hen, h0⟩ := hs.engine_of_tmrEnable hc hp
    obtain hoff | hcnt := hdrop
    · cases hen.symm.trans hoff
    · exact h0.ne' hcnt

/-! ## The whole invariant -/

theorem State.Inv.gapZero (h : s.Inv) : s.GapZero := ⟨h.memory, h.tail⟩

theorem exec_inv (hs : s.Inv) (h : exec i s = .next t) : t.Inv where
  admissible := (exec_cfg h).symm ▸ hs.admissible
  memory := (exec_gapZero hs.gapZero h).1
  tail := (exec_gapZero hs.gapZero h).2
  fault := exec_faultFacts hs.fault h
  before := exec_before hs.before h
  after := exec_contract hs.after h
  poll := exec_pollFacts hs.admissible hs.poll h
  phase := exec_phaseFacts hs.admissible hs.gapZero hs.phase h

/-- A fault is recorded beside everything that the invariant says. -/
theorem State.Inv.raiseFault (hs : s.Inv) (code : FaultCode) (w : CmdWord) (hl : s.Live) : (raiseFault code w s).Inv :=
  ⟨hs.admissible, hs.memory, hs.tail, faultFacts_raiseFault code w hl, hs.before, hs.after, hs.poll, hs.phase⟩

/-- The invariant of a live block says nothing of the issuers' side, but that RESP is empty before INIT. -/
theorem State.Inv.withIssuers (hs : s.Inv) (hl : s.Live) {cmd : Option CmdWord} {resp : Option RespWord}
    {prog second : List CmdWord} {await : Bool} {sched : List Agent} {moves : Nat}
    (hr : resp = none ∨ resp = s.resp) :
    State.Inv { s with
      cmdIn := cmd, resp := resp, hostProg := prog, hostAwait := await, second := second, sched := sched,
      moves := moves } := by
  refine ⟨hs.admissible, hs.memory, hs.tail, .inl ⟨hl, hs.fault.faultCmd_of_live hl⟩, fun hd => ?_, hs.after, hs.poll,
    hs.phase⟩
  obtain ⟨hp, hst, hpo, he, hsrc, hdst, htm, hper, hpin, hreq, hfs, hresp, hem, hpe⟩ := hs.before hd
  exact ⟨hp, hst, hpo, he, hsrc, hdst, htm, hper, hpin, hreq, hfs, hr.elim id (·.trans hresp), hem, hpe⟩

theorem State.Inv.advance (hs : s.Inv) (hl : s.Live) : (advance s).Inv := hs.withIssuers hl (.inr rfl)

theorem State.Inv.hostMove (hs : s.Inv) (hl : s.Live) : (hostMove s).Inv := by
  obtain he | ⟨-, he⟩ | ⟨w, ws, -, -, -, -, he⟩ := hostMove_cases s <;> rw [he]
  · exact hs
  · exact hs.withIssuers hl (.inl rfl)
  · exact hs.withIssuers hl (.inr rfl)

theorem State.Inv.secondMove (hs : s.Inv) (hl : s.Live) : (secondMove s).Inv := by
  obtain he | ⟨w, ws, -, -, he⟩ := secondMove_cases s <;> rw [he]
  · exact hs
  · exact hs.withIssuers hl (.inr rfl)

theorem step_inv (hs : s.Inv) (h : step s = .next t) : t.Inv := by
  obtain ⟨hl, ⟨w, -, ⟨i, -, h⟩ | ⟨r, -, rfl⟩⟩ | ⟨-, h⟩⟩ := step_next h
  · exact exec_inv hs h
  · exact hs.raiseFault _ w hl
  · have ha : (advance s).Inv := hs.advance hl
    obtain ⟨-, rfl⟩ | ⟨-, rfl⟩ | ⟨-, -, rfl⟩ | ⟨-, i, -, h⟩ | ⟨-, h⟩ | ⟨-, h⟩ := h
    · exact ha.hostMove hl
    · exact ha.secondMove hl
    · exact ha
    · exact exec_inv ha h
    · exact exec_inv ha h
    · exact exec_inv ha h

/-- Settles O45: every instruction keeps each part of the invariant, and the issuers' moves touch none. -/
theorem everyStepKeepsTheInvariant : Obligations.EveryStepKeepsTheInvariant := by
  unfold Obligations.EveryStepKeepsTheInvariant
  exact fun s t => step_inv

end Sys2Proof.Machine
end

section
/-! What the invariant says of every reachable state, and of the next step of a live block (R44, R37, R62). -/

namespace Sys2Proof.Machine

variable {i : Instr} {s t : State}

/-! ## Reset (R230) -/

/-- The state after reset meets the invariant, whatever is loaded: nothing has been recorded or configured, the block is
quiet and the gap is 0. -/
theorem boot_inv {c : Config} (hc : c.Admissible) (head : Nat → Elem) (prog second : List CmdWord)
    (sched : List Agent) : (State.boot c head prog second sched).Inv := by
  obtain ⟨hm, hgap⟩ := boot_gapZero c head prog second sched
  refine ⟨hc, hm, hgap, .inl ⟨rfl, rfl⟩, fun _ => ?_, nofun, ?_, (phaseFacts_idle rfl).2 ⟨rfl, rfl, rfl, rfl⟩⟩
  · exact ⟨rfl, rfl, rfl, rfl, rfl, rfl, rfl, rfl, rfl, rfl, rfl, rfl, rfl, rfl⟩
  · cases hb : (State.boot c head prog second sched).cfg.waitBound with
    | none => exact (pollFacts_none hb).2 ⟨rfl, rfl, nofun⟩
    | some b => exact (pollFacts_some hb).2 ⟨Nat.zero_le b, nofun, fun h => absurd rfl h⟩

theorem admissible_ex : Config.ex.Admissible := by decide

/-- Settles O46: the invariant of State.boot, of which State.reset is the case of EX with nothing loaded. -/
theorem resetMeetsTheInvariant : Obligations.ResetMeetsTheInvariant := by
  unfold Obligations.ResetMeetsTheInvariant
  exact ⟨fun c head prog second sched hc => boot_inv hc head prog second sched, boot_inv admissible_ex _ [] [] []⟩

theorem reachable_inv (h : Reachable s) : s.Inv :=
  reachable_induction (fun _ head prog second sched hc => boot_inv hc head prog second sched) (fun _ _ => step_inv) h

/-- Settles O48: the invariant's facts of IDLE; with CNT 0 a request is dropped, and a stopped timer has no event. -/
theorem reachableIdleBlockIsQuiet : Obligations.ReachableIdleBlockIsQuiet := by
  unfold Obligations.ReachableIdleBlockIsQuiet
  intro s hs ⟨hl, hp, hd⟩
  obtain ⟨hoff, hcnt, htc, hcmp⟩ := (phaseFacts_idle hp).1 (reachable_inv hs).phase
  refine ⟨hoff, hcnt, htc, hcmp, ?_, exec_timerPeriod_of_not_enabled hl (.inl hoff)⟩
  cases hr : s.reqPending with
  | true => exact exec_engineService_of_drop hl hr (.inr hcnt)
  | false => rw [← hr]; exact exec_engineService_of_no_request hl hr

/-- Settles O50: the invariant's facts of the poll counter. -/
theorem reachablePollsStayWithinTheBound : Obligations.ReachablePollsStayWithinTheBound := by
  unfold Obligations.ReachablePollsStayWithinTheBound
  intro s hs
  have hpoll := (reachable_inv hs).poll
  exact ⟨fun b hb => ((pollFacts_some hb).1 hpoll).1, fun hb => (pollFacts_none hb).1 hpoll⟩

/-! ## A live block has a next state -/

/-- CNT never passes LEN (R28). -/
theorem State.Inv.engCnt_le (h : s.Inv) : s.engCnt ≤ s.cfg.len := by
  have facts := h.phase
  cases hp : s.phase with
  | idle | encode | engDisable | engLoad =>
    rw [(facts.quiet (by simp [hp])).2.1]
    exact Nat.zero_le _
  | engEnable =>
    obtain ⟨-, -, -, hcnt, -⟩ := (phaseFacts_engEnable hp).1 facts
    exact hcnt.le
  | tmrEnable =>
    obtain ⟨-, -, -, ⟨hle, -⟩, -⟩ := (phaseFacts_tmrEnable hp).1 facts
    exact hle
  | wait =>
    obtain ⟨-, -, -, hle, -⟩ := (phaseFacts_wait hp).1 facts
    exact hle
  | abort =>
    obtain ⟨-, -, -, hle, -⟩ := (phaseFacts_abort hp).1 facts
    exact hle
  | clearTc =>
    obtain ⟨-, -, -, hcnt, -⟩ := (phaseFacts_clearTc hp).1 facts
    exact hcnt.le.trans (Nat.zero_le _)
  | tmrDisable =>
    obtain ⟨-, -, -, hcnt, -⟩ := (phaseFacts_tmrDisable hp).1 facts
    exact hcnt.le.trans (Nat.zero_le _)

/-- A command has a next state: its fault, or its effect. -/
theorem exists_exec_next_of_isCommand (hi : i.isCommand = true) (hl : s.Live) (hm : s.memWf = true) :
    ∃ t, exec i s = .next t := by
  cases hf : firstFault i s with
  | none => exact exists_exec_next_of_firstFault_none hi hl hf hm
  | some code => exact ⟨_, exec_of_firstFault hi hl hf⟩

theorem exists_wait_next (hl : s.Live) (hp : s.phase = .wait) : ∃ t, exec .wait s = .next t := by
  cases ht : s.tc with
  | true => exact ⟨_, exec_wait_of_tc hl hp ht⟩
  | false =>
    cases hb : s.cfg.waitBound with
    | none => exact ⟨_, exec_wait_of_unbounded hl hp ht hb⟩
    | some b => exact ⟨_, exec_wait_of_bounded hl hp ht hb⟩

/-- The step of the phase has a next state. -/
theorem exists_exec_next_of_phaseInstr (hl : s.Live) (hi : phaseInstr s.phase = .ok i) : ∃ t, exec i s = .next t := by
  cases hp : s.phase <;> rw [hp] at hi <;> cases hi
  case encode => exact ⟨_, exec_encode hl hp⟩
  case engDisable => exact ⟨_, exec_engDisable hl hp⟩
  case engLoad => exact ⟨_, exec_engLoad hl hp⟩
  case engEnable => exact ⟨_, exec_engEnable hl hp⟩
  case tmrEnable => exact ⟨_, exec_tmrEnable hl hp⟩
  case wait => exact exists_wait_next hl hp
  case clearTc => exact ⟨_, exec_clearTc hl hp⟩
  case tmrDisable => exact ⟨_, exec_tmrDisable hl hp⟩
  case abort => exact ⟨_, exec_abort hl hp⟩

theorem exists_timerPeriod_next (hl : s.Live) : ∃ t, exec .timerPeriod s = .next t := by
  by_cases h : s.tmrCtrl.en = true ∧ s.reqPending = false
  · exact ⟨_, exec_timerPeriod_of_enabled hl h.1 h.2⟩
  · exact ⟨_, exec_timerPeriod_of_not_enabled hl (by simpa [or_iff_not_imp_left] using h)⟩

/-- The engine's service finds the element it transfers (R62). -/
theorem exists_engineService_next (hs : s.Inv) (hl : s.Live) : ∃ t, exec .engineService s = .next t := by
  cases hr : s.reqPending with
  | false => exact ⟨_, exec_engineService_of_no_request hl hr⟩
  | true =>
    by_cases h : s.engCfg.en = true ∧ 0 < s.engCnt
    · obtain ⟨v, hv⟩ := exists_source hs.memory h.2 hs.engCnt_le
      exact ⟨_, exec_engineService_of_transfer hl hr h.1 h.2 hs.engCnt_le hv⟩
    · exact ⟨_, exec_engineService_of_drop hl hr (by simpa [or_iff_not_imp_left] using h)⟩

theorem exists_presentWord_next (w : CmdWord) (hl : s.Live) (hm : s.memWf = true) : ∃ t, presentWord w s = .next t := by
  cases hd : decodeCommand s.cfg.hasGetter w with
  | error r => exact ⟨_, presentWord_of_error hd⟩
  | ok i =>
    rw [presentWord_of_ok hd]
    exact exists_exec_next_of_isCommand (isCommand_of_decodeCommand hd) hl hm

theorem phaseInstr_eq_ok_of_ne_idle {p : Phase} (hp : p ≠ .idle) : ∃ i, phaseInstr p = .ok i := by
  cases p with
  | idle => exact absurd rfl hp
  | _ => exact ⟨_, rfl⟩

theorem exists_step_next (hs : s.Inv) (hl : s.Live) : ∃ t, step s = .next t := by
  cases hc : s.cmdIn with
  | some w =>
    rw [step_of_cmdIn hl hc]
    exact exists_presentWord_next w hl hs.memory
  | none =>
    cases ha : nextAgent s with
    | host => exact ⟨_, step_of_host hl hc ha⟩
    | second => exact ⟨_, step_of_second hl hc ha⟩
    | controller =>
      by_cases hp : s.phase = .idle
      · exact ⟨_, step_of_controller_idle hl hc ha hp⟩
      · obtain ⟨i, hi⟩ := phaseInstr_eq_ok_of_ne_idle hp
        rw [step_of_controller hl hc ha hi]
        exact exists_exec_next_of_phaseInstr (s := advance s) hl hi
    | timer =>
      rw [step_of_timer hl hc ha]
      exact exists_timerPeriod_next hl
    | engine =>
      rw [step_of_engine hl hc ha]
      exact exists_engineService_next (hs.advance hl) hl

/-! ## Nothing is refused -/

theorem whenLive_ne_refused {k : Result} {r : Refusal} (hk : k ≠ .refused r) : whenLive s k ≠ .refused r := by
  obtain ⟨-, h⟩ | ⟨-, h⟩ := whenLive_cases s k
  · rwa [h]
  · rw [h]; nofun

theorem command_ne_refused {k : State → Result} {r : Refusal} (hk : k (consume s) ≠ .refused r) :
    command i k s ≠ .refused r := by
  refine whenLive_ne_refused ?_
  cases firstFault i s with
  | none => exact hk
  | some code => nofun

theorem phaseStep_ne_refused {p : Phase} {k : State → Result} {r : Refusal} (hk : k s ≠ .refused r) :
    phaseStep p k s ≠ .refused r := by
  refine whenLive_ne_refused ?_
  split_ifs
  · exact hk
  · nofun

/-- No arm of exec refuses. -/
theorem exec_ne_refused (i : Instr) (s : State) (r : Refusal) : exec i s ≠ .refused r := by
  cases i with
  | init | fill | transmit =>
    simp only [exec, execInit, execFill, execTransmit]
    exact command_ne_refused nofun
  | setPixel | setPixelChannels =>
    simp only [exec, execSetPixel, execSetPixelChannels]
    exact command_ne_refused (by rw [setPixelEffect_eq]; nofun)
  | getPixel idx =>
    rw [exec, execGetPixel]
    refine command_ne_refused ?_
    split <;> nofun
  | wait =>
    rw [exec, execWait]
    refine phaseStep_ne_refused ?_
    split_ifs
    · nofun
    · unfold failedPoll hold
      split <;> nofun
  | encode | engDisable | engLoad | engEnable | tmrEnable | clearTc | tmrDisable | abort =>
    simp only [exec, execEncode, execEngDisable, execEngLoad, execEngEnable, execTmrEnable, execClearTc, execTmrDisable,
      execAbort]
    exact phaseStep_ne_refused nofun
  | timerPeriod =>
    rw [exec, execTimerPeriod]
    refine whenLive_ne_refused ?_
    split_ifs <;> nofun
  | engineService =>
    rw [exec, execEngineService]
    refine whenLive_ne_refused ?_
    unfold resolveRequest transfer
    split_ifs
    · split <;> nofun
    · nofun
    · nofun

theorem step_ne_refused (s : State) (r : Refusal) : step s ≠ .refused r := by
  unfold step
  split
  · nofun
  · nofun
  · exact exec_ne_refused _ _ r

/-- Settles O51: each thing that a live block can do next has a next state, and no meaning refuses. -/
theorem liveBlockNeverStops : Obligations.LiveBlockNeverStops := by
  unfold Obligations.LiveBlockNeverStops
  exact ⟨fun s => exists_step_next, step_ne_refused⟩

end Sys2Proof.Machine
end

section
/-! The output line (R178). -/

namespace Sys2Proof.Machine

variable {s : State}

/-! ## One period -/

theorem wave_length (c : Config) (v : Elem) : (wave c v).length = c.period := by
  simp [wave]

theorem wave_getElem? {c : Config} (v : Elem) {k : Nat} (hk : k < c.period) :
    (wave c v)[k]? = some (decide (k < min v.toNat c.period)) := by
  unfold wave
  by_cases hlow : k < min v.toNat c.period
  · rw [List.getElem?_append_left (by simpa using hlow), List.getElem?_replicate_of_lt hlow, decide_eq_true hlow]
  · have hle := not_lt.1 hlow
    rw [List.getElem?_append_right (by simpa using hle), List.length_replicate,
      List.getElem?_replicate_of_lt (Nat.sub_lt_sub_right hle hk), decide_eq_false hlow]

theorem wave_zero (c : Config) : wave c 0#16 = List.replicate c.period false := by simp [wave]

/-- A value below PERIOD is high for that many ticks and ends low. -/
theorem wave_of_lt {c : Config} {v : Elem} (h : v.toNat < c.period) :
    (wave c v).count true = v.toNat ∧ (wave c v).getLast? = some false := by
  have hlow : c.period - v.toNat ≠ 0 := by omega
  simp [wave, min_eq_left h.le, List.getLast?_append, List.getLast?_replicate, hlow, List.count_replicate]

/-- The pulse of a bit has its count as its value, which is below PERIOD (R7). -/
theorem toNat_pulse {c : Config} (h : c.Admissible) (bit : Bool) :
    (pulse c bit).toNat = (if bit then c.pwOne else c.pwZero) ∧ (pulse c bit).toNat < c.period := by
  obtain ⟨-, -, -, -, -, hlt, hper, -⟩ := id h
  obtain ⟨hone, hzero⟩ := toNat_pulses h
  cases bit with
  | true => exact ⟨hone, hone.trans_lt hper⟩
  | false => exact ⟨hzero, hzero.trans_lt (hlt.trans hper)⟩

/-! ## What the line is doing -/

theorem State.Inv.initDone_of_pinMode (h : s.Inv) (hp : s.pinMode = true) : s.initDone = true := by
  by_contra hd
  obtain ⟨-, -, -, -, -, -, -, -, hpin, -⟩ := h.before (by simpa using hd)
  cases hp.symm.trans hpin

/-- Once initialized, the running timer drives the pin (R31). -/
theorem lineState_of_running (h : s.Inv) (hp : s.pinMode = true) (he : s.tmrCtrl.en = true) : lineState s = .periods := by
  obtain ⟨-, -, -, hoe, -⟩ := h.after (h.initDone_of_pinMode hp)
  simp [lineState, hp, he, hoe]

theorem lineState_of_stopped (hp : s.pinMode = true) (he : s.tmrCtrl.en = false) : lineState s = .low := by
  simp [lineState, hp, he]

theorem lineState_of_unconfigured (hp : s.pinMode = false) : lineState s = .undriven := by simp [lineState, hp]

/-- While the timer is stopped the compare value is 0, except where a stale request has been served (log entry 19). -/
theorem State.PhaseFacts.tmrCmp_of_stopped (h : s.PhaseFacts) (he : s.tmrCtrl.en = false) (hp : s.phase ≠ .tmrEnable) :
    s.tmrCmp = 0 := by
  cases hq : s.phase with
  | idle | encode | engDisable | engLoad =>
    obtain ⟨-, -, -, hcmp⟩ := h.quiet (by simp [hq])
    exact hcmp
  | engEnable =>
    obtain ⟨-, -, -, -, -, hcmp⟩ := (phaseFacts_engEnable hq).1 h
    exact hcmp
  | tmrEnable => exact absurd hq hp
  | wait =>
    obtain ⟨-, -, hon, -⟩ := (phaseFacts_wait hq).1 h
    cases he.symm.trans hon
  | abort =>
    obtain ⟨-, -, hon, -⟩ := (phaseFacts_abort hq).1 h
    cases he.symm.trans hon
  | clearTc =>
    obtain ⟨-, -, hon, -⟩ := (phaseFacts_clearTc hq).1 h
    cases he.symm.trans hon
  | tmrDisable =>
    obtain ⟨-, -, hon, -⟩ := (phaseFacts_tmrDisable hq).1 h
    cases he.symm.trans hon

/-- Settles O52: a period tick by tick; a pulse's count is below PERIOD; the line's state from the pin and the timer. -/
theorem lineFollowsThePeriods : Obligations.LineFollowsThePeriods := by
  unfold Obligations.LineFollowsThePeriods
  refine ⟨fun c v => ⟨wave_length c v, fun k => wave_getElem? v⟩, fun c => ⟨?_, fun hc bit => ?_⟩, fun s hs hp => ⟨?_, ?_⟩,
    fun s k hp => ?_⟩
  · rw [wave_zero]
    simp
  · obtain ⟨hcount, hlt⟩ := toNat_pulse hc bit
    rw [← hcount]
    exact wave_of_lt hlt
  · exact lineState_of_running hs hp
  · intro he
    have hlow := lineState_of_stopped hp he
    exact ⟨hlow, fun k => by simp [idleLevel, hlow], hs.phase.tmrCmp_of_stopped he⟩
  · have hundriven := lineState_of_unconfigured hp
    exact ⟨hundriven, by simp [idleLevel, hundriven]⟩

end Sys2Proof.Machine
end

section
/-! The register views (R45, R27, R30, R31, R35, R39). -/

namespace Sys2Proof.Machine

variable {s : State}

/-! ## The packed words: no bit outside the fields -/

/-- A word within its fields reads 0 wherever no field is. -/
theorem and_reserved_eq_zero {w fields reserved : BitVec 32} (h : w &&& fields = w) (hr : fields &&& reserved = 0#32) :
    w &&& reserved = 0#32 := by
  rw [← h, BitVec.and_assoc, hr, BitVec.and_zero]

theorem engCfgWord_and_fields (e : EngCfg) : engCfgWord e &&& 0x3F3#32 = engCfgWord e :=
  append_and_allOnes (flagBit e.en) <| append_and_allOnes (flagBit e.tcie) <| append_zero_and <|
    append_and_allOnes (flagBit e.dir) <| append_and_allOnes (flagBit e.circ) <| append_and_allOnes (flagBit e.pinc) <|
    append_and_allOnes (flagBit e.minc) <| append_and_allOnes e.size (BitVec.and_self (x := 0#22))

theorem tmrCtrlWord_and_fields (c : TmrCtrl) : tmrCtrlWord c &&& 0x7#32 = tmrCtrlWord c :=
  append_and_allOnes (flagBit c.en) <| append_and_allOnes (flagBit c.reqEn) <|
    append_and_allOnes (flagBit c.oe) (BitVec.and_self (x := 0#29))

theorem toNat_zero_append_flagBit (b : Bool) : (0#31 ++ flagBit b).toNat = b.toNat := by cases b <;> rfl

theorem extractLsb'_engCfgWord_size (e : EngCfg) : (engCfgWord e).extractLsb' 8 2 = e.size := by
  rw [engCfgWord]
  iterate 7 refine (BitVec.extractLsb'_append_eq_of_le (by decide)).trans ?_
  exact BitVec.extractLsb'_append_eq_right

/-! ## The fields at their bits -/

theorem engCfgWord_bits (e : EngCfg) :
    (engCfgWord e).getLsbD 0 = e.en ∧ (engCfgWord e).getLsbD 1 = e.tcie ∧ (engCfgWord e).getLsbD 4 = e.dir ∧
      (engCfgWord e).getLsbD 5 = e.circ ∧ (engCfgWord e).getLsbD 6 = e.pinc ∧ (engCfgWord e).getLsbD 7 = e.minc := by
  simp only [engCfgWord, BitVec.getLsbD_append]
  simp [flagBit]

theorem tmrCtrlWord_bits (c : TmrCtrl) :
    (tmrCtrlWord c).getLsbD 0 = c.en ∧ (tmrCtrlWord c).getLsbD 1 = c.reqEn ∧ (tmrCtrlWord c).getLsbD 2 = c.oe := by
  simp only [tmrCtrlWord, BitVec.getLsbD_append]
  simp [flagBit]

theorem blkStatusWord_bits (s : State) :
    (blkStatusWord s).getLsbD 0 = s.initDone ∧ (blkStatusWord s).getLsbD 8 = (s.status == .timedOut) := by
  simp only [blkStatusWord, BitVec.getLsbD_append]
  exact ⟨by simp [flagBit], by cases s.status <;> rfl⟩

/-- A legal fault record has none of the reserved bits (R39). -/
theorem State.FaultFacts.reserved (h : s.FaultFacts) : s.blkFault &&& 0xFFFFFFE0#32 = 0#32 := by
  obtain ⟨hl, -⟩ | ⟨hm, -⟩ := h
  · rw [hl]; rfl
  · obtain ⟨code, -, hcode⟩ := List.mem_map.1 hm
    rw [← hcode]
    cases code <;> decide

/-- CNT fits its 16 bits (R7, R28). -/
theorem State.Inv.engCnt_lt (h : s.Inv) : s.engCnt < 2 ^ 16 := by
  obtain ⟨-, -, -, -, -, -, -, -, hmax, -⟩ := h.admissible
  have hle := h.engCnt_le
  unfold Config.cntMax at hmax
  omega

/-! ## The map of numbers (R45) -/


theorem readNumber_number (s : State) (r : Register) : readNumber s r.number = readReg s r := by cases r <;> rfl

theorem readNumber_of_unused {n : Nat} (h : ¬ ∃ r : Register, r.number = n) : readNumber s n = none := by
  have hnone : Register.all.find? (fun r => r.number == n) = none :=
    List.find?_eq_none.2 fun r _ hr => h ⟨r, beq_iff_eq.1 hr⟩
  simp [readNumber, hnone]

/-- The numbers that read: those of the registers, POLLS's only under a bound (R37). -/
theorem isSome_readNumber_iff (s : State) (n : Nat) : (readNumber s n).isSome = true ↔
    n ∈ [0x00, 0x01, 0x03, 0x10, 0x11, 0x12, 0x13, 0x14, 0x20, 0x21, 0x22, 0x30] ∨
      n = 0x02 ∧ s.cfg.waitBound.isSome = true := by
  by_cases h : ∃ r : Register, r.number = n
  · obtain ⟨r, rfl⟩ := h
    rw [readNumber_number]
    cases r with
    | polls => cases hb : s.cfg.waitBound.isSome <;> simp [readReg, Register.number, hb]
    | _ => simp [readReg, Register.number]
  · have used : ∀ m ∈ [0x00, 0x01, 0x03, 0x10, 0x11, 0x12, 0x13, 0x14, 0x20, 0x21, 0x22, 0x30, 0x02],
        m ∈ Register.all.map Register.number := by decide
    refine iff_of_false (by simp [readNumber_of_unused h]) fun hn => h ?_
    obtain ⟨r, -, hr⟩ := List.mem_map.1 (used n (by simp at hn ⊢; tauto))
    exact ⟨r, hr⟩

/-- Settles O53: the fields of each word, then its reserved bits; the registers by their numbers. -/
theorem registerWordsPackTheirFields : Obligations.RegisterWordsPackTheirFields := by
  unfold Obligations.RegisterWordsPackTheirFields
  intro s
  obtain ⟨hen, htcie, hdir, hcirc, hpinc, hminc⟩ := engCfgWord_bits s.engCfg
  obtain ⟨hten, hreq, hoe⟩ := tmrCtrlWord_bits s.tmrCtrl
  obtain ⟨hdone, hstatus⟩ := blkStatusWord_bits s
  refine ⟨⟨hen, htcie, hdir, hcirc, hpinc, hminc, extractLsb'_engCfgWord_size _,
      and_reserved_eq_zero (engCfgWord_and_fields _) (by decide)⟩,
    ⟨hten, hreq, hoe, and_reserved_eq_zero (tmrCtrlWord_and_fields _) (by decide)⟩,
    toNat_zero_append_flagBit s.tc, toNat_zero_append_flagBit s.pinMode,
    ⟨hdone, extractLsb'_blkStatusWord_phase s, hstatus, and_reserved_eq_zero (blkStatusWord_and_fields s) (by decide)⟩,
    fun hs => ⟨hs.fault.reserved, Nat.mod_eq_of_lt hs.engCnt_lt⟩, rfl, rfl, fun hb => ?_, rfl, rfl, rfl, rfl, rfl, rfl,
    rfl, rfl, rfl, rfl, isSome_readNumber_iff s⟩
  exact (readNumber_number s .polls).trans (if_pos hb)

end Sys2Proof.Machine
end

section
/-! Who writes what (10_state.md sections 1 to 5). -/

namespace Sys2Proof.Machine

/-- Settles O44: each next state is a few named updates of the state before, and the laws of State say which fields each
update leaves; what is left is that the instruction stands in the lists of the fields it writes. -/
theorem everyFieldHasOnlyItsWriters : Obligations.EveryFieldHasOnlyItsWriters := by
  unfold Obligations.EveryFieldHasOnlyItsWriters
  intro i s t h
  cases (exec_next h).2 with
  | hold => simp
  | fault hi => simp [hi]
  | init => simp [initEngCfg, initTmrCtrl, Instr.isCommand]
  | setPixel | setPixelIgnored | setPixelChannels | setPixelChannelsIgnored | fill | transmit | getPixel =>
    simp [Instr.isCommand]
  | encode hp | engDisable hp | engLoad hp | engEnable hp | tmrEnable hp | waitDone hp | waitAbort hp | clearTc hp
  | tmrDisable hp | abort hp => simp [Instr.phase?, hp]
  | waitPoll | timerPeriod | transfer | dropRequest => simp

end Sys2Proof.Machine
end

section
/-! A step while a transmission is in flight (R72, R152). -/

namespace Sys2Proof.Machine

variable {i : Instr} {s t : State}

/-- The block's own agents, the three of R72, with the instruction that each runs in a phase. -/
inductive AgentRuns (s : State) : Agent → Instr → Prop
  | controller {i : Instr} (hi : phaseInstr s.phase = .ok i) : AgentRuns s .controller i
  | timer : AgentRuns s .timer .timerPeriod
  | engine : AgentRuns s .engine .engineService

theorem AgentRuns.isCommand {a : Agent} (h : AgentRuns s a i) : i.isCommand = false := by
  cases h with
  | controller hi => exact isCommand_of_phase? (phase?_of_phaseInstr hi)
  | timer | engine => rfl

theorem AgentRuns.agent {a : Agent} (h : AgentRuns s a i) : a = .controller ∨ a = .timer ∨ a = .engine := by
  cases h with
  | controller | timer | engine => simp

/-- An issuer's move leaves everything but the issuers' own side as it was (R180). -/
abbrev IssuersMove (s t : State) : Prop :=
  t = { s with
    sched := t.sched, moves := t.moves, cmdIn := t.cmdIn, resp := t.resp, hostProg := t.hostProg,
    hostAwait := t.hostAwait, second := t.second }

theorem issuersMove_hostMove (s : State) : IssuersMove s (hostMove (advance s)) := by
  obtain h | ⟨-, h⟩ | ⟨w, ws, -, -, -, -, h⟩ := hostMove_cases (advance s) <;> rw [h] <;> rfl

theorem issuersMove_secondMove (s : State) : IssuersMove s (secondMove (advance s)) := by
  obtain h | ⟨w, ws, -, -, h⟩ := secondMove_cases (advance s) <;> rw [h] <;> rfl

/-- Everything that a step can do outside IDLE: record a presented word's fault, an issuer's move, or the instruction of
one of the block's own agents. -/
theorem step_in_flight (h : step s = .next t) (hp : s.phase ≠ .idle) :
    (∃ code w, s.cmdIn = some w ∧ t = raiseFault code w s) ∨
      s.cmdIn = none ∧ (IssuersMove s t ∨
        ∃ i, AgentRuns s (nextAgent s) i ∧ exec i (advance s) = .next t) := by
  obtain ⟨hl, ⟨w, hw, ⟨i, hd, h⟩ | ⟨r, -, rfl⟩⟩ | ⟨hn, h⟩⟩ := step_next h
  · have hbusy := presentWord_of_busy hl hp hd
    rw [presentWord_of_ok hd, h] at hbusy
    refine .inl ⟨.busy, w, hw, ?_⟩
    rw [raiseFault_of_live hl]
    exact Host.Outcome.next.inj hbusy
  · exact .inl ⟨.illegalCommand, w, hw, rfl⟩
  · refine .inr ⟨hn, ?_⟩
    obtain ⟨-, rfl⟩ | ⟨-, rfl⟩ | ⟨-, hidle, -⟩ | ⟨ha, i, hi, h⟩ | ⟨ha, h⟩ | ⟨ha, h⟩ := h
    · exact .inl (issuersMove_hostMove s)
    · exact .inl (issuersMove_secondMove s)
    · exact absurd hidle hp
    · exact .inr ⟨i, ha ▸ .controller hi, h⟩
    · exact .inr ⟨_, ha ▸ .timer, h⟩
    · exact .inr ⟨_, ha ▸ .engine, h⟩

/-- Only a setter and FILL write FS (R24). -/
theorem exec_fs_of_not_isCommand (hi : i.isCommand = false) (h : exec i s = .next t) : t.fs = s.fs := by
  cases (exec_next h).2 with
  | setPixel | setPixelChannels | fill => cases hi
  | _ => simp

/-- Settles O36: each thing that a step can do in flight leaves FS, and one that records a fault leaves no live block. -/
theorem frameStoreIsFrozenInFlight : Obligations.FrameStoreIsFrozenInFlight := by
  unfold Obligations.FrameStoreIsFrozenInFlight
  intro s t h hp
  have hl : s.Live := (step_next h).1
  have busy (w : CmdWord) (i : Instr) (hd : decodeCommand s.cfg.hasGetter w = .ok i) := presentWord_of_busy hl hp hd
  obtain ⟨code, w, -, rfl⟩ | ⟨hn, hmove | ⟨i, hruns, hx⟩⟩ := step_in_flight h hp
  · exact ⟨rfl, busy, fun ht => absurd ht (not_live_raiseFault code w s)⟩
  · have hfs : t.fs = s.fs := by rw [hmove]
    exact ⟨hfs, busy, fun _ => ⟨hn, .inr (.inr (.inr hmove))⟩⟩
  · refine ⟨exec_fs_of_not_isCommand (s := advance s) hruns.isCommand hx, busy, fun _ => ⟨hn, ?_⟩⟩
    obtain ha | ha | ha := hruns.agent
    · exact .inl ha
    · exact .inr (.inl ha)
    · exact .inr (.inr (.inl ha))

end Sys2Proof.Machine
end

section
/-! Runs under a given order of moves: the bounded wait, the stalled engine and the lockstep order (R155, P1). -/

namespace Sys2Proof.Machine

variable {i : Instr} {s t u : State} {rest : List Agent}

/-! ## Runs, and the listed moves -/

/-- A run of `m + n` steps is one of `m` and then one of `n`. -/
theorem core_run_add {m n : Nat} :
    Sys2Proof.core.run (m + n) s = .next t ↔
      ∃ u, Sys2Proof.core.run m s = .next u ∧ Sys2Proof.core.run n u = .next t := by
  induction m generalizing s with
  | zero =>
    rw [Nat.zero_add]
    exact ⟨fun h => ⟨s, rfl, h⟩, fun ⟨u, hu, h⟩ => by cases hu; exact h⟩
  | succ m ih =>
    rw [Nat.add_right_comm, core_run_succ]
    constructor
    · rintro ⟨v, hv, h⟩
      obtain ⟨u, hu, h⟩ := ih.1 h
      exact ⟨u, core_run_succ.2 ⟨v, hv, hu⟩, h⟩
    · rintro ⟨u, hu, h⟩
      obtain ⟨v, hv, hu⟩ := core_run_succ.1 hu
      exact ⟨v, hv, ih.2 ⟨u, hu, h⟩⟩

/-- The state with the first listed move used up. -/
abbrev State.moved (s : State) (rest : List Agent) : State := { s with sched := rest, moves := s.moves + 1 }

section
variable (hl : s.Live) (hn : s.cmdIn = none)
include hl hn

theorem step_of_sched_controller (hs : s.sched = .controller :: rest) (hi : phaseInstr s.phase = .ok i) :
    step s = exec i (s.moved rest) := by
  rw [step_of_controller hl hn (nextAgent_of_sched hs) hi, advance_of_sched hs]

theorem step_of_sched_timer (hs : s.sched = .timer :: rest) : step s = exec .timerPeriod (s.moved rest) := by
  rw [step_of_timer hl hn (nextAgent_of_sched hs), advance_of_sched hs]

theorem step_of_sched_engine (hs : s.sched = .engine :: rest) : step s = exec .engineService (s.moved rest) := by
  rw [step_of_engine hl hn (nextAgent_of_sched hs), advance_of_sched hs]

end

/-- A run whose first move is the controller's. -/
theorem run_of_sched_controller {n : Nat} (hl : s.Live) (hn : s.cmdIn = none) (hs : s.sched = .controller :: rest)
    (hi : phaseInstr s.phase = .ok i) (hx : exec i (s.moved rest) = .next u)
    (h : Sys2Proof.core.run n u = .next t) : Sys2Proof.core.run (n + 1) s = .next t :=
  core_run_succ.2 ⟨u, (step_of_sched_controller hl hn hs hi).trans hx, h⟩

/-! ## The bounded wait -/

/-- The state after a failed poll that does not meet the bound. -/
abbrev State.polled (s : State) (rest : List Agent) : State :=
  { s with polls := s.polls + 1, phase := .wait, sched := rest, moves := s.moves + 1 }

/-- The last `m + 1` failed polls under a bound come to ABORT's phase (R148). -/
theorem run_failedPolls {b m : Nat} (hl : s.Live) (hn : s.cmdIn = none) (hp : s.phase = .wait) (ht : s.tc = false)
    (hb : s.cfg.waitBound = some b) (hm : s.polls + (m + 1) = b)
    (hs : s.sched = List.replicate (m + 1) .controller ++ rest) :
    Sys2Proof.core.run (m + 1) s =
      .next { s with polls := b, phase := .abort, sched := rest, moves := s.moves + (m + 1) } := by
  have hi : phaseInstr s.phase = .ok .wait := by rw [hp]; rfl
  induction m generalizing s with
  | zero =>
    have poll := exec_wait_of_bounded (s := s.moved rest) hl hp ht hb
    rw [if_pos hm] at poll
    exact run_of_sched_controller hl hn hs hi poll (by rw [core_run_zero, hm])
  | succ m ih =>
    have poll := exec_wait_of_bounded (s := s.moved (List.replicate (m + 1) .controller ++ rest)) hl hp ht hb
    rw [if_neg (by dsimp only; omega)] at poll
    have polls := ih (s := s.polled (List.replicate (m + 1) .controller ++ rest)) hl hn rfl ht hb
      (by dsimp only; omega) rfl rfl
    rw [Nat.add_right_comm s.moves, Nat.add_assoc s.moves] at polls
    exact run_of_sched_controller hl hn hs hi poll polls

/-- Settles O39: in WAIT the count is below the bound, the polls that are left come to ABORT, and ABORT ends it. -/
theorem boundedWaitEndsInAbort : Obligations.BoundedWaitEndsInAbort := by
  unfold Obligations.BoundedWaitEndsInAbort
  intro s b rest hs hl hn hp ht hb hsched
  obtain ⟨-, -, hlt⟩ := (pollFacts_some hb).1 hs.poll
  obtain ⟨m, hm⟩ : ∃ m, b - s.polls = m + 1 :=
    Nat.exists_eq_add_of_le' (Nat.sub_pos_of_lt (hlt (by simp [hp]) (by simp [hp])))
  rw [hm] at hsched ⊢
  refine ⟨_, core_run_add.2 ⟨_, run_failedPolls hl hn hp ht hb (by omega) hsched, ?_⟩, rfl⟩
  exact run_of_sched_controller hl hn rfl rfl (exec_abort hl rfl) rfl

/-! ## The stalled engine -/

/-- A transmission that only the engine can move on: WAIT without a bound, TC 0, the issuers with nothing to do. -/
structure State.Stalled (s : State) : Prop where
  live : s.Live
  phase : s.phase = .wait
  tc : s.tc = false
  unbounded : s.cfg.waitBound = none
  cmdIn : s.cmdIn = none
  resp : s.resp = none
  hostAwait : s.hostAwait = true
  second : s.second = []

/-- Every move but the engine's keeps the stall, and with it CNT and EMITTED (log entries 5, 6). -/
theorem State.Stalled.step {a : Agent} (h : s.Stalled) (hs : s.sched = a :: rest) (ha : a ≠ .engine) :
    ∃ t, step s = .next t ∧ t.Stalled ∧ t.sched = rest ∧ t.engCnt = s.engCnt ∧ t.emitted = s.emitted := by
  have moved : (s.moved rest).Stalled :=
    ⟨h.live, h.phase, h.tc, h.unbounded, h.cmdIn, h.resp, h.hostAwait, h.second⟩
  have next := nextAgent_of_sched hs
  cases a with
  | engine => exact absurd rfl ha
  | host =>
    refine ⟨s.moved rest, ?_, moved, rfl, rfl, rfl⟩
    rw [step_of_host h.live h.cmdIn next, advance_of_sched hs, hostMove_of_hostAwait moved.resp moved.hostAwait]
  | second =>
    refine ⟨s.moved rest, ?_, moved, rfl, rfl, rfl⟩
    rw [step_of_second h.live h.cmdIn next, advance_of_sched hs, secondMove_of_second_nil moved.cmdIn moved.second]
  | controller =>
    refine ⟨s.moved rest, ?_, moved, rfl, rfl, rfl⟩
    rw [step_of_sched_controller (i := .wait) h.live h.cmdIn hs (by rw [h.phase]; rfl)]
    exact exec_wait_of_unbounded moved.live moved.phase moved.tc moved.unbounded
  | timer =>
    rw [step_of_sched_timer h.live h.cmdIn hs]
    by_cases he : s.tmrCtrl.en = true ∧ s.reqPending = false
    · exact ⟨_, exec_timerPeriod_of_enabled moved.live he.1 he.2,
        ⟨h.live, h.phase, h.tc, h.unbounded, h.cmdIn, h.resp, h.hostAwait, h.second⟩, rfl, rfl, rfl⟩
    · refine ⟨s.moved rest, exec_timerPeriod_of_not_enabled moved.live ?_, moved, rfl, rfl, rfl⟩
      simpa [or_iff_not_imp_left] using he

theorem State.Stalled.run {n : Nat} (h : s.Stalled) (hn : n ≤ s.sched.length) (ha : Agent.engine ∉ s.sched.take n) :
    ∃ t, Sys2Proof.core.run n s = .next t ∧ t.Stalled ∧ t.engCnt = s.engCnt ∧ t.emitted = s.emitted := by
  induction n generalizing s with
  | zero => exact ⟨s, rfl, h, rfl, rfl⟩
  | succ n ih =>
    obtain ⟨a, rest, hs⟩ := List.exists_cons_of_length_pos (Nat.zero_lt_of_lt hn)
    simp only [hs, List.take_succ_cons, List.mem_cons, not_or] at ha
    obtain ⟨u, hu, hstall, hsched, hcnt, hem⟩ := h.step hs (Ne.symm ha.1)
    have hlen : n ≤ u.sched.length := by
      rw [hs, List.length_cons] at hn
      rw [hsched]
      omega
    obtain ⟨t, ht, hstall', hcnt', hem'⟩ := ih hstall hlen (hsched ▸ ha.2)
    exact ⟨t, core_run_succ.2 ⟨u, hu, ht⟩, hstall', hcnt'.trans hcnt, hem'.trans hem⟩

/-- Settles O40: the stall is kept move by move, and a waiting host is not at its end. -/
theorem stalledEngineHoldsInWait : Obligations.StalledEngineHoldsInWait := by
  unfold Obligations.StalledEngineHoldsInWait
  intro s n hl hp ht hb hc hr hw hsec hn ha
  have h : s.Stalled := ⟨hl, hp, ht, hb, hc, hr, hw, hsec⟩
  obtain ⟨t, hrun, hstall, hcnt, hem⟩ := h.run hn ha
  refine ⟨t, hrun, hstall.phase, hcnt, hem, fun hend => ?_⟩
  obtain ⟨-, hidle, -⟩ := hend
  cases hstall.hostAwait.symm.trans hidle

/-! ## The lockstep order -/

/-- The word of TRANSMIT starts a transmission in a Ready block (R142). -/
theorem step_transmit (hs : s.Ready) (hc : s.cmdIn = some 0x0500000000000000#64) : step s = .next
    { s with polls := if s.cfg.waitBound.isSome then 0 else s.polls, phase := .encode, cmdIn := none } := by
  have decodes : decodeCommand s.cfg.hasGetter 0x0500000000000000#64 = .ok .transmit :=
    decodeCommand_commandWord (c := s.cfg) (i := .transmit) rfl rfl
  rw [step_of_cmdIn hs.1 hc, presentWord_of_ok decodes, exec_transmit hs]

/-- Five moves of the controller encode the frame, arm the engine and start the timer (R143 to R147). -/
theorem run_arming (hl : s.Live) (hn : s.cmdIn = none) (hp : s.phase = .encode)
    (hs : s.sched = List.replicate 5 .controller ++ rest) :
    Sys2Proof.core.run 5 s = .next
      { s with
        buf := enc s.cfg s.fs, engCfg := { s.engCfg with en := true }, engCnt := s.cfg.len,
        tmrCtrl := { s.tmrCtrl with en := true }, phase := .wait, sched := rest, moves := s.moves + 5 } :=
  run_of_sched_controller hl hn hs (by rw [hp]; rfl) (exec_encode hl hp) <|
    run_of_sched_controller hl hn rfl rfl (exec_engDisable hl rfl) <|
    run_of_sched_controller hl hn rfl rfl (exec_engLoad hl rfl) <|
    run_of_sched_controller hl hn rfl rfl (exec_engEnable hl rfl) <|
    run_of_sched_controller hl hn rfl rfl (exec_tmrEnable hl rfl) rfl

/-- Three moves of the controller end a transmission whose last element is out (R148 to R150). -/
theorem run_ending (hl : s.Live) (hn : s.cmdIn = none) (hp : s.phase = .wait) (ht : s.tc = true)
    (hs : s.sched = List.replicate 3 .controller ++ rest) :
    Sys2Proof.core.run 3 s = .next
      { s with
        phase := .idle, tc := false, tmrCtrl := { s.tmrCtrl with en := false }, status := .ok,
        resp := some 0x03000000#32, sched := rest, moves := s.moves + 3 } :=
  run_of_sched_controller hl hn hs (by rw [hp]; rfl) (exec_wait_of_tc hl hp ht) <|
    run_of_sched_controller hl hn rfl rfl (exec_clearTc hl rfl) <|
    run_of_sched_controller hl hn rfl rfl (exec_tmrDisable hl rfl) rfl

/-- The state after the timer and then the engine have moved, the engine with element `v`. -/
abbrev State.pumped (s : State) (v : Elem) (rest : List Agent) : State :=
  { s with
    periods := s.periods ++ [s.tmrCmp], reqPending := false, tmrCmp := v, emitted := s.emitted ++ [v],
    engCnt := s.engCnt - 1, tc := s.tc || s.engCnt == 1, sched := rest, moves := s.moves + 1 + 1 }

/-- A transmission on its way in the lockstep order: timer and engine run, and no request is pending. -/
structure State.Pumping (s : State) : Prop where
  live : s.Live
  cmdIn : s.cmdIn = none
  timer : s.tmrCtrl.en = true
  request : s.tmrCtrl.reqEn = true
  idle : s.reqPending = false
  engine : s.engCfg.en = true
  le : s.engCnt ≤ s.cfg.len
  length : s.buf.length = s.cfg.len

/-- A period event and the service it asks for. -/
theorem State.Pumping.round {v : Elem} (h : s.Pumping) (h0 : 0 < s.engCnt)
    (hv : s.buf[s.cfg.len - s.engCnt]? = some v) (hs : s.sched = .timer :: .engine :: rest) :
    Sys2Proof.core.run 2 s = .next (s.pumped v rest) := by
  have period := exec_timerPeriod_of_enabled (s := s.moved (.engine :: rest)) h.live h.timer h.idle
  refine core_run_succ.2 ⟨_, (step_of_sched_timer h.live h.cmdIn hs).trans period, core_run_succ.2 ⟨_, ?_, rfl⟩⟩
  exact Eq.trans (step_of_sched_engine h.live h.cmdIn rfl)
    (exec_engineService_of_transfer h.live h.request h.engine h0 h.le hv)

theorem State.Pumping.pumped {v : Elem} (h : s.Pumping) : (s.pumped v rest).Pumping :=
  ⟨h.live, h.cmdIn, h.timer, h.request, rfl, h.engine, (Nat.sub_le ..).trans h.le, h.length⟩

/-- As many rounds as elements are left send them all: EMITTED grows by them, and so does PERIODS when the value that
plays is counted in. -/
theorem State.Pumping.run {m : Nat} (h : s.Pumping) (hm : s.engCnt = m)
    (hs : s.sched = (List.replicate m [Agent.timer, Agent.engine]).flatten ++ rest) :
    ∃ t, Sys2Proof.core.run (2 * m) s = .next t ∧ t.Pumping ∧ t.phase = s.phase ∧ t.fs = s.fs ∧ t.sched = rest ∧
      t.tc = (s.tc || decide (0 < m)) ∧ t.emitted = s.emitted ++ s.buf.drop (s.cfg.len - m) ∧
      t.periods ++ [t.tmrCmp] = s.periods ++ [s.tmrCmp] ++ s.buf.drop (s.cfg.len - m) := by
  induction m generalizing s with
  | zero =>
    have hdrop : s.buf.drop (s.cfg.len - 0) = [] := List.drop_eq_nil_of_le h.length.le
    exact ⟨s, rfl, h, rfl, rfl, hs, by simp, by rw [hdrop, List.append_nil], by rw [hdrop, List.append_nil]⟩
  | succ m ih =>
    have hle := h.le
    have hlt : s.cfg.len - (m + 1) < s.buf.length := by
      rw [h.length]
      omega
    have hdrop : s.buf.drop (s.cfg.len - (m + 1)) = s.buf[s.cfg.len - (m + 1)] :: s.buf.drop (s.cfg.len - m) := by
      rw [List.drop_eq_getElem_cons hlt, show s.cfg.len - (m + 1) + 1 = s.cfg.len - m by omega]
    have hround := h.round (rest := (List.replicate m [Agent.timer, Agent.engine]).flatten ++ rest)
      (by omega) (by rw [hm]; exact List.getElem?_eq_getElem hlt) hs
    obtain ⟨t, hrun, hpump, hp, hfs, hsched, htc, hem, hplayed⟩ := ih h.pumped (by dsimp only; omega) rfl
    refine ⟨t, ?_, hpump, hp, hfs, hsched, ?_, ?_, ?_⟩
    · rw [Nat.mul_succ, Nat.add_comm]
      exact core_run_add.2 ⟨_, hround, hrun⟩
    · rw [htc]
      cases m <;> simp [hm]
    · rw [hem, hdrop]
      simp
    · rw [hplayed, hdrop]
      simp

/-- A list that ends as another does has the other's beginning. -/
theorem dropLast_of_append_singleton {ps qs es : List Elem} {e : Elem} (h : ps ++ [e] = qs ++ es) (hes : es ≠ []) :
    ps = qs ++ es.take (es.length - 1) := by
  have hlast := congrArg List.dropLast h
  rwa [List.dropLast_concat, List.dropLast_append_of_ne_nil hes, List.dropLast_eq_take] at hlast

/-- Settles O38: the run is the presented word, the arming, LEN rounds and the ending, each with its own lemma. -/
theorem lockstepTransmissionCompletes : Obligations.LockstepTransmissionCompletes := by
  unfold Obligations.LockstepTransmissionCompletes
  intro s rest hs hready hcmd hreq hsched
  obtain ⟨hl, hp, hd⟩ := hready
  obtain ⟨-, -, hreqEn, -⟩ := hs.after hd
  obtain ⟨hfs, -⟩ := memWf_iff.1 hs.memory
  obtain ⟨-, -, htc, hcmp⟩ := (phaseFacts_idle hp).1 hs.phase
  have hlen := two_le_len hs.admissible
  have henc : (enc s.cfg s.fs).length = s.cfg.len := enc_length hfs
  have start := step_transmit ⟨hl, hp, hd⟩ hcmd
  simp only [List.append_assoc] at hsched
  have arming := run_arming (s := { s with
    polls := if s.cfg.waitBound.isSome then 0 else s.polls, phase := .encode, cmdIn := none }) hl rfl rfl hsched
  obtain ⟨t, hrun, hpump, hpt, hft, hst, htct, hem, hplayed⟩ := State.Pumping.run
    (s := { s with
      polls := if s.cfg.waitBound.isSome then 0 else s.polls, cmdIn := none,
      buf := enc s.cfg s.fs, engCfg := { s.engCfg with en := true }, engCnt := s.cfg.len,
      tmrCtrl := { s.tmrCtrl with en := true }, phase := .wait, moves := s.moves + 5,
      sched := (List.replicate s.cfg.len [Agent.timer, Agent.engine]).flatten ++
        (List.replicate 3 .controller ++ rest) })
    ⟨hl, rfl, rfl, hreqEn, hreq, rfl, le_rfl, henc⟩ rfl rfl
  have ending := run_ending hpump.live hpump.cmdIn hpt (by rw [htct]; simp; omega) hst
  refine ⟨_, core_run_add.2 ⟨t, core_run_add.2 ⟨_, core_run_add.2 ⟨_, core_run_succ.2 ⟨_, start, rfl⟩, arming⟩, hrun⟩,
    ending⟩, rfl, rfl, rfl, hft, rfl, ?_, ?_, hpump.idle⟩
  · simpa using hem
  · have hne : enc s.cfg s.fs ≠ [] := List.ne_nil_of_length_pos (by omega)
    have := dropLast_of_append_singleton (qs := s.periods ++ [0]) (by simpa [hcmp] using hplayed) hne
    rw [henc] at this
    simpa using this

end Sys2Proof.Machine
end

section
/-! One transmission, under every order of the agents' moves (42_transmitter.md section 4): what EMITTED and PERIODS hold while
the engine is part-way through the frame. -/

namespace Sys2Proof.Machine

variable {i : Instr} {s t u : State} {a : Nat} {early : Prop}

/-! ## What has been played -/

/-- PERIODS with the period that plays counted in; while a request is pending, its event has counted it already. -/
def State.played (u : State) : List Elem := if u.reqPending then u.periods else u.periods ++ [u.tmrCmp]

theorem played_of_pending (hr : u.reqPending = true) : u.played = u.periods := by simp [State.played, hr]

theorem played_of_idle (hr : u.reqPending = false) : u.played = u.periods ++ [u.tmrCmp] := by simp [State.played, hr]

/-- A state `u` of a transmission that began in `s`: EMITTED has grown by the elements transferred, and so has what was
played, after `a` entries 0 and, once all are out, before some more. -/
structure Sending (s : State) (a : Nat) (u : State) : Prop where
  le_one : a ≤ 1
  emitted : u.emitted = s.emitted ++ (enc s.cfg s.fs).take (s.cfg.len - u.engCnt)
  played : ∃ b, (0 < u.engCnt → b = 0) ∧
    u.played = s.periods ++ List.replicate a 0 ++ (enc s.cfg s.fs).take (s.cfg.len - u.engCnt) ++ List.replicate b 0

/-- The first element is out, and no period event has come since `s`: a stale request transferred it. -/
def EarlyTransfer (s u : State) : Prop :=
  u.emitted = s.emitted ++ (enc s.cfg s.fs).take 1 ∧ u.periods = s.periods

/-- The configuration and the Frame Store of a transmission that began in `s`. -/
structure Frame (s : State) : Prop where
  admissible : s.cfg.Admissible
  length : s.fs.length = s.cfg.n

theorem Frame.enc_length (h : Frame s) : (enc s.cfg s.fs).length = s.cfg.len := Machine.enc_length h.length

theorem not_earlyTransfer (hs : Frame s) (he : u.emitted = s.emitted) : ¬ EarlyTransfer s u := by
  rintro ⟨hem, -⟩
  have hlen := congrArg List.length (he.symm.trans hem)
  have := two_le_len hs.admissible
  rw [List.length_append, List.length_take, hs.enc_length] at hlen
  omega

/-- An early transfer is the first one, and there is no entry 0 before it. -/
theorem Sending.of_earlyTransfer (h : Sending s a u) (hs : Frame s) (he : EarlyTransfer s u) :
    a = 0 ∧ u.engCnt < s.cfg.len := by
  obtain ⟨hem, hpe⟩ := he
  obtain ⟨b, -, hplayed⟩ := h.played
  have hlen := two_le_len hs.admissible
  have htake := congrArg List.length (List.append_cancel_left (h.emitted.symm.trans hem))
  rw [List.length_take, List.length_take, hs.enc_length] at htake
  have hle : u.played.length ≤ s.periods.length + 1 := by
    unfold State.played
    split_ifs <;> simp [hpe]
  rw [hplayed] at hle
  simp only [List.length_append, List.length_replicate, List.length_take, hs.enc_length] at hle
  omega

/-! ## How each event moves it on -/

theorem Sending.of_eq (h : Sending s a u) (he : t.emitted = u.emitted) (hc : t.engCnt = u.engCnt)
    (hp : t.played = u.played) : Sending s a t := by
  obtain ⟨h1, hem, b, hb, hplayed⟩ := h
  exact ⟨h1, by rw [he, hc, hem], b, hc ▸ hb, by rw [hp, hc, hplayed]⟩

/-- When the engine has been armed, an entry 0 is still to be played before the first element exactly when no stale request
will transfer that at once. -/
theorem Sending.start (hcnt : u.engCnt = s.cfg.len) (hcmp : u.tmrCmp = 0) (he : u.emitted = s.emitted)
    (hp : u.periods = s.periods) : Sending s (if u.reqPending then 0 else 1) u := by
  refine ⟨by split_ifs <;> omega, by simp [hcnt, he], 0, fun _ => rfl, ?_⟩
  cases hr : u.reqPending with
  | true => simp [played_of_pending hr, hcnt, hp]
  | false => simp [played_of_idle hr, hcnt, hp, hcmp]

/-- A period event counts in what was playing. -/
theorem played_period (hr : u.reqPending = false) (hreq : u.tmrCtrl.reqEn = true) :
    State.played { u with periods := u.periods ++ [u.tmrCmp], reqPending := u.tmrCtrl.reqEn } = u.played := by
  rw [played_of_idle hr, played_of_pending hreq]

theorem Sending.transferred {v : Elem} (h : Sending s a u) (hr : u.reqPending = true) (h0 : 0 < u.engCnt)
    (hle : u.engCnt ≤ s.cfg.len) (hv : (enc s.cfg s.fs)[s.cfg.len - u.engCnt]? = some v) :
    Sending s a (u.transferred v) := by
  obtain ⟨h1, hem, b, hb, hplayed⟩ := h
  have htake : (enc s.cfg s.fs).take (s.cfg.len - (u.engCnt - 1)) =
      (enc s.cfg s.fs).take (s.cfg.len - u.engCnt) ++ [v] := by
    rw [show s.cfg.len - (u.engCnt - 1) = s.cfg.len - u.engCnt + 1 by omega, List.take_add_one, hv]
    rfl
  rw [played_of_pending hr, hb h0] at hplayed
  refine ⟨h1, ?_, 0, fun _ => rfl, ?_⟩
  · dsimp only
    rw [htake, hem, List.append_assoc]
  · rw [played_of_idle rfl]
    dsimp only
    rw [htake, hplayed]
    simp

/-- The first element, transferred for a stale request, is out before any period event. -/
theorem Sending.earlyTransfer {v : Elem} (h : Sending s 0 u) (ht : Sending s 0 (u.transferred v))
    (hr : u.reqPending = true) (h0 : 0 < u.engCnt) (hcnt : u.engCnt = s.cfg.len) :
    EarlyTransfer s (u.transferred v) := by
  obtain ⟨-, -, b, hb, hplayed⟩ := h
  rw [played_of_pending hr, hb h0, hcnt, Nat.sub_self] at hplayed
  have hone : s.cfg.len - (u.engCnt - 1) = 1 := by omega
  exact ⟨hone ▸ ht.emitted, hplayed.trans (by simp)⟩

/-- Once all elements are out, a request is dropped and one more 0 plays. -/
theorem Sending.dropped (h : Sending s a u) (hr : u.reqPending = true) (h0 : u.engCnt = 0) (hcmp : u.tmrCmp = 0) :
    Sending s a (setReqPending false u) := by
  obtain ⟨h1, hem, b, -, hplayed⟩ := h
  refine ⟨h1, hem, b + 1, fun hpos => absurd h0 hpos.ne', ?_⟩
  rw [played_of_pending hr] at hplayed
  rw [played_of_idle rfl, setReqPending_periods, setReqPending_tmrCmp, setReqPending_engCnt, hplayed, hcmp,
    List.replicate_succ', List.append_assoc _ _ [0]]

/-! ## The phases of a transmission -/

/-- The phases before the engine is enabled. -/
def isArming : Phase → Bool
  | .encode | .engDisable | .engLoad | .engEnable => true
  | .idle | .tmrEnable | .wait | .abort | .clearTc | .tmrDisable => false

/-- The phases in which it is. -/
def isSending : Phase → Bool
  | .tmrEnable | .wait | .abort | .clearTc | .tmrDisable => true
  | .idle | .encode | .engDisable | .engLoad | .engEnable => false

/-- A state `u` of a transmission that began in `s`; `early` says that a stale request's transfer has been seen. -/
inductive Flight (s : State) (early : Prop) (u : State) : Prop
  | arming (hp : isArming u.phase = true) (he : u.emitted = s.emitted) (hpe : u.periods = s.periods) (hn : ¬ early)
  | sending {a : Nat} (hp : isSending u.phase = true) (h : Sending s a u)
      (ha : early ↔ a = 0 ∧ u.engCnt < s.cfg.len)

theorem Flight.phase_ne_idle (h : Flight s early u) : u.phase ≠ .idle := by
  intro hp
  cases h with
  | arming hq => rw [hp] at hq; cases hq
  | sending hq => rw [hp] at hq; cases hq

/-- While the engine is armed the timer is stopped, and no request moves an element. -/
theorem State.PhaseFacts.of_isArming (h : u.PhaseFacts) (hp : isArming u.phase = true) :
    u.tmrCtrl.en = false ∧ (u.engCfg.en = true → u.engCnt = 0) := by
  cases hq : u.phase with
  | encode | engDisable | engLoad =>
    obtain ⟨hoff, hcnt, -⟩ := h.quiet (by simp [hq])
    exact ⟨hoff, fun _ => hcnt⟩
  | engEnable =>
    obtain ⟨-, hen, hoff, -⟩ := (phaseFacts_engEnable hq).1 h
    exact ⟨hoff, fun he => by cases he.symm.trans hen⟩
  | _ => rw [hq] at hp; cases hp

/-- While the engine sends it is enabled, and BUF is the frame. -/
theorem State.PhaseFacts.of_isSending (h : u.PhaseFacts) (hp : isSending u.phase = true) :
    u.Encoded ∧ u.engCfg.en = true := by
  cases hq : u.phase with
  | tmrEnable => exact ((phaseFacts_tmrEnable hq).1 h).imp_right And.left
  | wait => exact ((phaseFacts_wait hq).1 h).imp_right And.left
  | abort => exact ((phaseFacts_abort hq).1 h).imp_right And.left
  | clearTc => exact ((phaseFacts_clearTc hq).1 h).imp_right And.left
  | tmrDisable => exact ((phaseFacts_tmrDisable hq).1 h).imp_right And.left
  | _ => rw [hq] at hp; cases hp

/-- With no element left the compare value is 0, in every phase. -/
theorem State.Inv.tmrCmp_of_engCnt_eq_zero (h : u.Inv) (h0 : u.engCnt = 0) : u.tmrCmp = 0 := by
  have facts := h.phase
  cases hp : u.phase with
  | idle | encode | engDisable | engLoad =>
    obtain ⟨-, -, -, hcmp⟩ := facts.quiet (by simp [hp])
    exact hcmp
  | engEnable =>
    obtain ⟨-, -, -, -, -, hcmp⟩ := (phaseFacts_engEnable hp).1 facts
    exact hcmp
  | tmrEnable =>
    obtain ⟨-, -, -, htr, -⟩ := (phaseFacts_tmrEnable hp).1 facts
    exact htr.tmrCmp_of_engCnt_eq_zero h.admissible h.gapZero h0
  | wait =>
    obtain ⟨-, -, -, htr⟩ := (phaseFacts_wait hp).1 facts
    exact htr.tmrCmp_of_engCnt_eq_zero h.admissible h.gapZero h0
  | abort =>
    obtain ⟨-, -, -, htr⟩ := (phaseFacts_abort hp).1 facts
    exact htr.tmrCmp_of_engCnt_eq_zero h.admissible h.gapZero h0
  | clearTc =>
    obtain ⟨-, -, -, -, -, hcmp⟩ := (phaseFacts_clearTc hp).1 facts
    exact hcmp
  | tmrDisable =>
    obtain ⟨-, -, -, -, -, hcmp⟩ := (phaseFacts_tmrDisable hp).1 facts
    exact hcmp

/-! ## Every step keeps it, until the block is back in IDLE -/

section
variable (hs : Frame s)
include hs

theorem Flight.of_arming (hp : isArming t.phase = true) (he : t.emitted = s.emitted) (hpe : t.periods = s.periods)
    (hn : ¬ early) : Flight s (early ∨ EarlyTransfer s t) t :=
  .arming hp he hpe (not_or.2 ⟨hn, not_earlyTransfer hs he⟩)

theorem Flight.of_sending (hp : isSending t.phase = true) (h : Sending s a t)
    (hold : early → a = 0 ∧ t.engCnt < s.cfg.len)
    (hnew : a = 0 → t.engCnt < s.cfg.len → early ∨ EarlyTransfer s t) : Flight s (early ∨ EarlyTransfer s t) t :=
  .sending hp h ⟨fun he => he.elim hold (h.of_earlyTransfer hs), fun ⟨h0, hlt⟩ => hnew h0 hlt⟩

/-- A step that moves neither the engine nor the lists, within the arming phases or within the sending ones. -/
theorem Flight.of_eq (h : Flight s early u) (ha : isArming t.phase = isArming u.phase)
    (hp : isSending t.phase = isSending u.phase) (he : t.emitted = u.emitted) (hpe : t.periods = u.periods)
    (hc : t.engCnt = u.engCnt) (hpl : t.played = u.played) : Flight s (early ∨ EarlyTransfer s t) t := by
  cases h with
  | arming hq hem hper hn => exact .of_arming hs (ha.trans hq) (he.trans hem) (hpe.trans hper) hn
  | sending hq hS hearly =>
    rw [← hc] at hearly
    exact .of_sending hs (hp.trans hq) (hS.of_eq he hc hpl) hearly.1 fun h0 hlt => .inl (hearly.2 ⟨h0, hlt⟩)

/-- The block's own agents move a transmission on. -/
theorem Flight.exec (hu : u.Inv) (hcfg : u.cfg = s.cfg) (hfs : u.fs = s.fs) (h : Flight s early u)
    (hi : i.isCommand = false) (hx : exec i u = .next t) (ht : t.phase ≠ .idle) :
    Flight s (early ∨ EarlyTransfer s t) t := by
  have facts := hu.phase
  cases (exec_next hx).2 with
  | fault hc => cases hi.symm.trans hc
  | init | setPixel | setPixelIgnored | setPixelChannels | setPixelChannelsIgnored | fill | transmit | getPixel => cases hi
  | hold => exact h.of_eq hs rfl rfl rfl rfl rfl rfl
  | encode hp | engDisable hp | engLoad hp =>
    cases h with
    | arming _ he hpe hn => exact .of_arming hs rfl he hpe hn
    | sending hq => rw [hp] at hq; cases hq
  | engEnable hp =>
    obtain ⟨-, -, -, hcnt, -, hcmp⟩ := (phaseFacts_engEnable hp).1 facts
    rw [hcfg] at hcnt
    cases h with
    | arming _ he hpe hn =>
      exact .of_sending hs rfl (Sending.start (u := setPhase .tmrEnable (setEngEn true u)) hcnt hcmp he hpe)
        (fun he => absurd he hn) fun _ hlt => absurd hcnt hlt.ne
    | sending hq => rw [hp] at hq; cases hq
  | tmrEnable hp | waitDone hp | waitPoll hp | waitAbort hp | clearTc hp =>
    exact h.of_eq hs (by simp [hp, isArming]) (by simp [hp, isSending]) rfl rfl rfl rfl
  | tmrDisable | abort => exact absurd rfl ht
  | timerPeriod hon hr =>
    cases h with
    | arming hp => cases hon.symm.trans (facts.of_isArming hp).1
    | sending hp hS hearly =>
      have hd : u.initDone = true := by
        by_contra hd
        obtain ⟨hidle, -⟩ := hu.before (by simpa using hd)
        rw [hidle] at hp
        cases hp
      obtain ⟨-, -, hreq, -⟩ := hu.after hd
      exact .of_sending hs hp (hS.of_eq rfl rfl (played_period hr hreq)) hearly.1
        fun h0 hlt => .inl (hearly.2 ⟨h0, hlt⟩)
  | transfer hr hen h0 hle hv =>
    cases h with
    | arming hp => exact absurd ((facts.of_isArming hp).2 hen) h0.ne'
    | sending hp hS hearly =>
      rw [(facts.of_isSending hp).1, hcfg, hfs] at hv
      rw [hcfg] at hle
      have hS' := hS.transferred hr h0 hle hv
      refine .of_sending hs hp hS' (fun he => ⟨(hearly.1 he).1, ?_⟩) fun ha hlt => ?_
      · exact (Nat.sub_le ..).trans_lt (hearly.1 he).2
      · subst ha
        by_cases hcnt : u.engCnt < s.cfg.len
        · exact .inl (hearly.2 ⟨rfl, hcnt⟩)
        · exact .inr (hS.earlyTransfer hS' hr h0 (by omega))
  | dropRequest hr hdrop =>
    cases h with
    | arming hp he hpe hn => exact .of_arming hs hp he hpe hn
    | sending hp hS hearly =>
      have h0 : u.engCnt = 0 := hdrop.resolve_left fun hoff => by cases hoff.symm.trans (facts.of_isSending hp).2
      exact .of_sending hs hp (hS.dropped hr h0 (hu.tmrCmp_of_engCnt_eq_zero h0)) hearly.1
        fun ha hlt => .inl (hearly.2 ⟨ha, hlt⟩)

theorem Flight.step (hu : u.Inv) (hcfg : u.cfg = s.cfg) (hfs : u.fs = s.fs) (h : Flight s early u)
    (hx : step u = .next t) (ht : t.phase ≠ .idle) : Flight s (early ∨ EarlyTransfer s t) t := by
  obtain ⟨code, w, -, rfl⟩ | ⟨-, hmove | ⟨i, hruns, hx'⟩⟩ := step_in_flight hx h.phase_ne_idle
  · exact h.of_eq hs rfl rfl rfl rfl rfl rfl
  · rw [hmove]
    exact h.of_eq hs rfl rfl rfl rfl rfl rfl
  · have ha : Flight s early (advance u) := by
      cases h with
      | arming hp he hpe hn => exact .arming hp he hpe hn
      | sending hp hS hearly => exact .sending hp (hS.of_eq rfl rfl rfl) hearly
    exact ha.exec hs (hu.advance (step_next hx).1) hcfg hfs hruns.isCommand hx' ht

end

/-! ## The run of a transmission -/

/-- A run by its last step. -/
theorem core_run_last {n : Nat} (h : Sys2Proof.core.run (n + 1) s = .next t) :
    ∃ u : State, Sys2Proof.core.run n s = .next u ∧ step u = .next t := by
  obtain ⟨u, hu, h⟩ := core_run_add.1 h
  obtain ⟨v, hv, h⟩ := core_run_succ.1 h
  cases h
  exact ⟨u, hu, hv⟩

/-- Within `n` steps a stale request's transfer is seen. -/
def Early (s : State) (n : Nat) : Prop := ∃ k u, k ≤ n ∧ Sys2Proof.core.run k s = .next u ∧ EarlyTransfer s u

theorem early_succ {n : Nat} (h : Sys2Proof.core.run (n + 1) s = .next t) :
    Early s (n + 1) ↔ Early s n ∨ EarlyTransfer s t := by
  constructor
  · rintro ⟨k, u, hk, hu, he⟩
    obtain hk | rfl := Nat.le_succ_iff.1 hk
    · exact .inl ⟨k, u, hk, hu, he⟩
    · cases hu.symm.trans h
      exact .inr he
  · rintro (⟨k, u, hk, hu, he⟩ | he)
    · exact ⟨k, u, Nat.le_succ_of_le hk, hu, he⟩
    · exact ⟨n + 1, t, le_rfl, h, he⟩

theorem not_early_zero (hs : Frame s) : ¬ Early s 0 := by
  rintro ⟨k, u, hk, hu, he⟩
  obtain rfl := Nat.le_zero.1 hk
  cases hu
  exact not_earlyTransfer hs rfl he

theorem State.Inv.frame (h : s.Inv) : Frame s := ⟨h.admissible, (memWf_iff.1 h.memory).1⟩

theorem hostMove_cfg (s : State) : (hostMove s).cfg = s.cfg := by
  obtain h | ⟨-, h⟩ | ⟨w, ws, -, -, -, -, h⟩ := hostMove_cases s <;> rw [h]

theorem secondMove_cfg (s : State) : (secondMove s).cfg = s.cfg := by
  obtain h | ⟨w, ws, -, -, h⟩ := secondMove_cases s <;> rw [h]

theorem step_cfg (h : step s = .next t) : t.cfg = s.cfg :=
  step_keeps (P := fun u => u.cfg = s.cfg) (fun _ _ _ hu hx => (exec_cfg hx).trans hu) (fun _ _ hu => hu)
    (fun _ hu => hu) (fun u => (hostMove_cfg u).trans) (fun u => (secondMove_cfg u).trans) rfl h

/-- After TRANSMIT, as long as the block has not been back in IDLE, it is in flight with its frame. -/
theorem run_flight {n : Nat} (hs : s.Inv) (hready : s.Ready) (hcmd : s.cmdIn = some 0x0500000000000000#64)
    (hp : ∀ k u, 0 < k → k ≤ n + 1 → Sys2Proof.core.run k s = .next u → u.phase ≠ .idle)
    (h : Sys2Proof.core.run (n + 1) s = .next t) :
    t.Inv ∧ t.cfg = s.cfg ∧ t.fs = s.fs ∧ Flight s (Early s (n + 1)) t := by
  rw [early_succ h]
  induction n generalizing t with
  | zero =>
    obtain ⟨u, hu, hstep⟩ := core_run_last h
    cases hu
    have hinv := step_inv hs hstep
    rw [step_transmit hready hcmd] at hstep
    cases hstep
    exact ⟨hinv, rfl, rfl, .of_arming hs.frame rfl rfl rfl (not_early_zero hs.frame)⟩
  | succ n ih =>
    obtain ⟨u, hu, hstep⟩ := core_run_last h
    obtain ⟨hinv, hcfg, hfs, hflight⟩ := ih (fun k v h0 hk => hp k v h0 (by omega)) hu
    rw [← early_succ hu] at hflight
    have hfs' : t.fs = u.fs := (frameStoreIsFrozenInFlight u t hstep hflight.phase_ne_idle).1
    exact ⟨step_inv hinv hstep, (step_cfg hstep).trans hcfg, hfs'.trans hfs,
      hflight.step hs.frame hinv hcfg hfs hstep (hp _ t (by omega) le_rfl h)⟩

/-! ## What a completed transmission has done -/

/-- An encoded frame ends in its gap. -/
theorem Frame.enc_eq_take_append (hs : Frame s) :
    enc s.cfg s.fs = (enc s.cfg s.fs).take (s.cfg.len - 1) ++ [0] := by
  obtain ⟨-, -, hr, -⟩ := hs.admissible
  have hlen : s.cfg.len = s.cfg.dataLen + s.cfg.r := rfl
  have hlast : (enc s.cfg s.fs)[s.cfg.len - 1]? = some 0 := by
    rw [show s.cfg.len - 1 = s.cfg.dataLen + (s.cfg.r - 1) by omega]
    exact enc_getElem?_gap hs.length (by omega)
  calc enc s.cfg s.fs = (enc s.cfg s.fs).take (s.cfg.len - 1 + 1) := by
        rw [List.take_of_length_le]
        rw [hs.enc_length]
        omega
    _ = _ := by rw [List.take_add_one, hlast]; rfl

theorem Sending.emitted_of_done (h : Sending s a u) (hs : Frame s) (h0 : u.engCnt = 0) :
    u.emitted = s.emitted ++ enc s.cfg s.fs := by
  rw [h.emitted, h0, Nat.sub_zero, ← hs.enc_length, List.take_length]

/-- When all elements are out, the last entry 0 of the frame plays, or it has been counted in. -/
theorem Sending.periods_of_done (h : Sending s a u) (hs : Frame s) (h0 : u.engCnt = 0) (hcmp : u.tmrCmp = 0) :
    ∃ b, u.periods =
      s.periods ++ List.replicate a 0 ++ (enc s.cfg s.fs).take (s.cfg.len - 1) ++ List.replicate b 0 := by
  obtain ⟨-, -, b, -, hplayed⟩ := h
  have hplayed : u.played =
      s.periods ++ List.replicate a 0 ++ (enc s.cfg s.fs).take (s.cfg.len - 1) ++ List.replicate (b + 1) 0 := by
    rw [hplayed, h0, Nat.sub_zero, ← hs.enc_length, List.take_length, hs.enc_length]
    conv_lhs => rw [hs.enc_eq_take_append]
    simp [List.replicate_succ]
  cases hr : u.reqPending with
  | true => exact ⟨b + 1, (played_of_pending hr).symm.trans hplayed⟩
  | false =>
    refine ⟨b, List.append_cancel_right (bs := [0]) ?_⟩
    rw [played_of_idle hr, hcmp] at hplayed
    rw [hplayed, List.replicate_succ', ← List.append_assoc]

/-- A step ends a transmission with OK only from TMR_DISABLE's phase, by that instruction. -/
theorem step_to_idle_ok (h : step u = .next t) (hu : u.phase ≠ .idle) (ht : t.phase = .idle) (hok : t.status = .ok) :
    u.phase = .tmrDisable ∧ t = { advance u with
      tmrCtrl := { u.tmrCtrl with en := false }, status := .ok, phase := .idle, resp := some 0x03000000#32 } := by
  have hlive : (advance u).Live := (step_next h).1
  have hend := transmissionCannotBeCancelled
  unfold Obligations.TransmissionCannotBeCancelled at hend
  obtain ⟨-, -, ⟨hp, hx⟩ | ⟨hp, hx⟩⟩ := hend.1 u t h hu ht
  · rw [exec_tmrDisable hlive hp] at hx
    cases hx
    exact ⟨hp, rfl⟩
  · rw [exec_abort hlive hp] at hx
    cases hx
    cases hok

/-- Settles O37: every step of the run keeps Flight, and TMR_DISABLE, the one step that ends it with OK, finds the last
element out. -/
theorem transmissionDeliversTheFrame : Obligations.TransmissionDeliversTheFrame := by
  unfold Obligations.TransmissionDeliversTheFrame
  intro s t n hs hready hcmd hp hpos h ht hok
  obtain ⟨m, rfl⟩ := Nat.exists_eq_add_one_of_ne_zero hpos.ne'
  obtain ⟨u, hu, hstep⟩ := core_run_last h
  cases m with
  | zero =>
    cases hu
    rw [step_transmit hready hcmd] at hstep
    cases hstep
    cases ht
  | succ k =>
    obtain ⟨hinv, hcfg, hfs, hflight⟩ := run_flight hs hready hcmd (fun j v h0 hj => hp j v h0 (by omega)) hu
    obtain ⟨hphase, rfl⟩ := step_to_idle_ok hstep hflight.phase_ne_idle ht hok
    obtain ⟨hbuf, hen, -, hcnt, htc, hcmp⟩ := (phaseFacts_tmrDisable hphase).1 hinv.phase
    cases hflight with
    | arming hq => rw [hphase] at hq; cases hq
    | @sending a hq hS ha =>
      obtain ⟨b, hper⟩ := hS.periods_of_done hs.frame hcnt hcmp
      have hearly : a = 0 ↔ Early s (k + 2) := by
        have hlen := two_le_len hs.admissible
        rw [early_succ h, ha]
        exact ⟨fun h0 => .inl ⟨h0, by omega⟩, fun he => (he.elim id (hS.of_earlyTransfer hs.frame)).1⟩
      rw [State.Encoded, hcfg, hfs] at hbuf
      exact ⟨hbuf, hS.emitted_of_done hs.frame hcnt, ⟨a, b, hS.le_one, hper, hearly⟩, rfl, hen, hcnt, htc, hcmp, rfl, hfs⟩

end Sys2Proof.Machine
end
